-- ==== Sys2Proof/Word.lean ====
section
/-! DEFINITION. The plain types of FDCD's data: bytes, rows of bits, Captures (spec/00_scope.md R10, R11; spec/20_memory.md R50, R51). -/

namespace Sys2Proof

/-- A payload byte (R24: `b0`, `b1`, `b2` are 8 bits wide). -/
abbrev Byte := BitVec 8

/-- A row: a finite sequence of bits in the row's own order, index 0 first, with its own length (R11, R51). -/
abbrev Row := List Bool

/-- A Capture: an ordered sequence of rows (R50, R51). `Cap.nrows` is its length, `Cap.len[r]` the length of row `r`;
a row or bit beyond those does not exist, and the list gives it no value. Equal Captures are equal lists, so the
list is its own canonical form. -/
abbrev Capture := List Row

end Sys2Proof
end

