-- ==== Sys2Proof/Config.lean ====
section
/-! DEFINITION. What is fixed for an FDCD: its revision strap's two values, the parameters of spec/00_scope.md R9
(OPEN ones as opaque constants), the registration constants of spec/10_state.md R36. -/

namespace Sys2Proof

/-- The two revisions (R3). The strap `REV` encodes A as 0 and B as 1 (R28). -/
inductive Rev where
  | A
  | B
  deriving DecidableEq, Repr

/-- `FRAME_BITS` (R9): the exact bit length of a Frame. -/
def Config.frameBits : Nat := 25

/-- How far `NROWS_MAX` lies above its least value. OPEN (R9, D3), log 10. -/
opaque Config.nrowsAbove : Nat

/-- How far `ROWBITS_MAX` lies above its least value. OPEN (R9, D3), log 10. -/
opaque Config.rowBitsAbove : Nat

/-- `NROWS_MAX` (R9): a natural, at least 2, otherwise open. -/
def Config.nrowsMax : Nat := Config.nrowsAbove + 2

/-- `ROWBITS_MAX` (R9): a natural, at least 25, otherwise open. -/
def Config.rowBitsMax : Nat := Config.rowBitsAbove + 25

/-- `MODEL_LABEL_A` (R9, R182, D11): a string the source never states. OPEN, log 11. -/
opaque Config.modelLabelA : String

/-- `MODEL_LABEL_B` (R9, R182). -/
def Config.modelLabelB : String := "Digoo-Security"

/-- `VERBOSE` (R9, R35, D16): whether the sanity-failure diagnostic is produced. OPEN, log 11. -/
opaque Config.verbose : Bool

/-- `DISPLAY_NAME_A` (R9, R36, D17). OPEN, log 11. -/
opaque Config.displayNameA : String

/-- `DISPLAY_NAME_B` (R9, R36, D17). OPEN, log 11. -/
opaque Config.displayNameB : String

/-- `TIME_UNIT` (R9, R36, D17): the unit of the five timing constants. OPEN, log 11. -/
opaque Config.timeUnit : String

/-- The registration record an FDCD presents (R36). No rule of the block reads it. -/
structure Config.Registration where
  displayName : String
  modulation : String
  shortWidth : Nat
  longWidth : Nat
  gapLimit : Nat
  resetLimit : Nat
  tolerance : Nat
  timeUnit : String
  deriving DecidableEq, Repr

/-- The registration constants of each revision (R36). The printed numbers are taken as exact (C7), log 28. -/
def Config.registration (rev : Rev) : Config.Registration where
  displayName := match rev with
    | .A => Config.displayNameA
    | .B => Config.displayNameB
  modulation := "pulse-width-modulated on-off keying"
  shortWidth := 400
  longWidth := 1200
  gapLimit := 1500
  resetLimit := 9900
  tolerance := 160
  timeUnit := Config.timeUnit

/-- The strap of the machine that `State.reset` names, and the revision `decodeTableWord` reads a table word under.
DESIGN CHOICE: the spec gives `REV` no value of its own, each block has one (R28); logs 1 and 2. -/
def Config.strapAtReset : Rev := .A

end Sys2Proof
end

