-- ==== Sys2Proof/Syntax.lean ====
section
/-! DEFINITION. The instructions of FDCD: one constructor per row of spec/opcode_table.json (R4, R95). -/

namespace Sys2Proof

/-- A command: a 4-bit command code under a revision (the constructor) with its one operand, the 20-bit `id`
(R84: format PL24, `id` in bits 23 to 4, `cmd` in bits 3 to 0). -/
inductive Instr where
  /-- `A.UNKNOWN(0x0)`, `cmd` = 0x0, R149: state `unknown`, no conditional field. -/
  | aUnknown0 (id : BitVec 20)
  /-- `A.LOCKED`, `cmd` = 0x1, R145: state `locked`, `button` = lock. -/
  | aLocked (id : BitVec 20)
  /-- `A.UNLOCKED`, `cmd` = 0x2, R146: state `unlocked`, `button` = unlock. -/
  | aUnlocked (id : BitVec 20)
  /-- `A.OPEN3`, `cmd` = 0x3, R143: state `open`, `opened` = 1. -/
  | aOpen3 (id : BitVec 20)
  /-- `A.HOME`, `cmd` = 0x4, R147: state `home`, `button` = home. -/
  | aHome (id : BitVec 20)
  /-- `A.MOTION`, `cmd` = 0x5, R141: state `motion`, `motion` = 1. -/
  | aMotion (id : BitVec 20)
  /-- `A.OPEN6`, `cmd` = 0x6, R142: state `open`, `opened` = 1. -/
  | aOpen6 (id : BitVec 20)
  /-- `A.UNKNOWN(0x7)`, `cmd` = 0x7, R149: state `unknown`, no conditional field. -/
  | aUnknown7 (id : BitVec 20)
  /-- `A.SOS`, `cmd` = 0x8, R148: state `sos`, `button` = sos. -/
  | aSos (id : BitVec 20)
  /-- `A.CLOSE`, `cmd` = 0x9, R144: state `close`, `opened` = 0. -/
  | aClose (id : BitVec 20)
  /-- `A.UNKNOWN(0xa)`, `cmd` = 0xa, R149: state `unknown`, no conditional field. -/
  | aUnknownA (id : BitVec 20)
  /-- `A.UNKNOWN(0xb)`, `cmd` = 0xb, R149: state `unknown`, no conditional field. -/
  | aUnknownB (id : BitVec 20)
  /-- `A.UNKNOWN(0xc)`, `cmd` = 0xc, R149: state `unknown`, no conditional field. -/
  | aUnknownC (id : BitVec 20)
  /-- `A.UNKNOWN(0xd)`, `cmd` = 0xd, R149: state `unknown`, no conditional field. -/
  | aUnknownD (id : BitVec 20)
  /-- `A.UNKNOWN(0xe)`, `cmd` = 0xe, R149: state `unknown`, no conditional field. -/
  | aUnknownE (id : BitVec 20)
  /-- `A.UNKNOWN(0xf)`, `cmd` = 0xf, R149: state `unknown`, no conditional field. -/
  | aUnknownF (id : BitVec 20)
  /-- `B.UNKNOWN(0x0)`, `cmd` = 0x0, R169: state `unknown`, no conditional field. -/
  | bUnknown0 (id : BitVec 20)
  /-- `B.UNKNOWN(0x1)`, `cmd` = 0x1, R169: state `unknown`, no conditional field. -/
  | bUnknown1 (id : BitVec 20)
  /-- `B.UNKNOWN(0x2)`, `cmd` = 0x2, R169: state `unknown`, no conditional field. -/
  | bUnknown2 (id : BitVec 20)
  /-- `B.UNKNOWN(0x3)`, `cmd` = 0x3, R169: state `unknown`, no conditional field. -/
  | bUnknown3 (id : BitVec 20)
  /-- `B.UNKNOWN(0x4)`, `cmd` = 0x4, R169: state `unknown`, no conditional field. -/
  | bUnknown4 (id : BitVec 20)
  /-- `B.UNKNOWN(0x5)`, `cmd` = 0x5, R169: state `unknown`, no conditional field. -/
  | bUnknown5 (id : BitVec 20)
  /-- `B.CLOSE`, `cmd` = 0x6, R164: state `close`, `opened` = 0. -/
  | bClose (id : BitVec 20)
  /-- `B.SOS`, `cmd` = 0x7, R168: state `sos`, `sos` = 1. -/
  | bSos (id : BitVec 20)
  /-- `B.UNKNOWN(0x8)`, `cmd` = 0x8, R169: state `unknown`, no conditional field. -/
  | bUnknown8 (id : BitVec 20)
  /-- `B.OPEN9`, `cmd` = 0x9, R162: state `open`, `opened` = 1. -/
  | bOpen9 (id : BitVec 20)
  /-- `B.MOTION`, `cmd` = 0xa, R161: state `motion`, `motion` = 1. -/
  | bMotion (id : BitVec 20)
  /-- `B.HOME`, `cmd` = 0xb, R167: state `home`, `home` = 1. -/
  | bHome (id : BitVec 20)
  /-- `B.OPENC`, `cmd` = 0xc, R163: state `open`, `opened` = 1. -/
  | bOpenC (id : BitVec 20)
  /-- `B.UNLOCKED`, `cmd` = 0xd, R166: state `unlocked`, `unlock` = 1. -/
  | bUnlocked (id : BitVec 20)
  /-- `B.LOCKED`, `cmd` = 0xe, R165: state `locked`, `lock` = 1. -/
  | bLocked (id : BitVec 20)
  /-- `B.UNKNOWN(0xf)`, `cmd` = 0xf, R169: state `unknown`, no conditional field. -/
  | bUnknownF (id : BitVec 20)
  deriving DecidableEq, Repr

end Sys2Proof
end

