-- ==== Sys2Proof/WellFormed.lean ====
section
/-! DEFINITION. Which commands a Frame can carry (spec/30_encoding.md R97, R99) and which structures are Captures
(spec/20_memory.md R51, R61). -/

namespace Sys2Proof

/-- Every `id` under every code is a command some Frame carries, but for one: Revision A with `id` = 0xfffff and
`cmd` = 0xf, whose raw payload is all zero and is refused before it is ever decoded (R97, R99); log 33. -/
def Instr.wellFormed : Instr → Bool
  | .aUnknown0 _ => true
  | .aLocked _ => true
  | .aUnlocked _ => true
  | .aOpen3 _ => true
  | .aHome _ => true
  | .aMotion _ => true
  | .aOpen6 _ => true
  | .aUnknown7 _ => true
  | .aSos _ => true
  | .aClose _ => true
  | .aUnknownA _ => true
  | .aUnknownB _ => true
  | .aUnknownC _ => true
  | .aUnknownD _ => true
  | .aUnknownE _ => true
  | .aUnknownF id => id != 0xfffff#20
  | .bUnknown0 _ => true
  | .bUnknown1 _ => true
  | .bUnknown2 _ => true
  | .bUnknown3 _ => true
  | .bUnknown4 _ => true
  | .bUnknown5 _ => true
  | .bClose _ => true
  | .bSos _ => true
  | .bUnknown8 _ => true
  | .bOpen9 _ => true
  | .bMotion _ => true
  | .bHome _ => true
  | .bOpenC _ => true
  | .bUnlocked _ => true
  | .bLocked _ => true
  | .bUnknownF _ => true

/-- R51: at most `NROWS_MAX` rows, each of at most `ROWBITS_MAX` bits. A structure that breaks this is not a
Capture (R61). -/
def Capture.wf (cap : Capture) : Bool :=
  decide (cap.length ≤ Config.nrowsMax) && cap.all (fun row => decide (row.length ≤ Config.rowBitsMax))

end Sys2Proof
end

