-- ==== Sys2Proof/Decode.lean ====
section
/-! DEFINITION. Decoding a Frame to a command, and the encoder (spec/30_encoding.md R80 to R87, R95, R99;
spec/41_payload_decoder.md R125 to R133). The bit-order and bit-field helpers of the whole model stand here. -/

namespace Sys2Proof

/-- R55: the unsigned value of a bit sequence whose first bit is the most significant. The one place where the order
of bits within a value is decided (D4, U16); log 12. -/
def packNat (bits : List Bool) : Nat := bits.foldl (fun acc b => 2 * acc + b.toNat) 0

/-- R55 at a width: the `n`-bit value of `n` bits, first bit most significant. -/
def packBits (n : Nat) (bits : List Bool) : BitVec n := BitVec.ofNat n (packNat bits)

/-- The bits of a value, most significant first: the inverse of `packBits` (R55, R81). -/
def unpackBits {n : Nat} (v : BitVec n) : List Bool := (List.range n).map (fun k => v.getMsbD k)

/-- `not_8` (R10, R127, R131): `v ^ 0xFF`, an 8-bit result. -/
def invertByte (b : Byte) : Byte := b ^^^ 0xFF#8

/-- The condition of SANITY (R126): all three raw bytes are zero. -/
def allZero (b0 b1 b2 : Byte) : Bool := b0 == 0#8 && b1 == 0#8 && b2 == 0#8

/-- EXTRACT, first half (R85, R129): `(zext_20(b0) << 12) | (zext_20(b1) << 4) | zext_20(b2 >> 4)`. -/
def extractId (b0 b1 b2 : Byte) : BitVec 20 :=
  (b0.setWidth 20 <<< 12) ||| (b1.setWidth 20 <<< 4) ||| (b2 >>> 4).setWidth 20

/-- EXTRACT, second half (R85, R130): `b2 & 0x0F`, 4 bits. -/
def extractCmd (b2 : Byte) : BitVec 4 := (b2 &&& 0x0F#8).setWidth 4

/-- The polarity rule on one payload byte (R83): Revision A inverts, Revision B takes the byte as captured. -/
def polarity (rev : Rev) (b : Byte) : Byte :=
  match rev with
  | .A => invertByte b
  | .B => b

/-- The command map (R95): the command that code `cmd` names under revision `rev`. Total on the 32 keys. -/
def Instr.ofCommand (rev : Rev) (id : BitVec 20) (cmd : BitVec 4) : Instr :=
  match rev with
  | .A => match cmd.toNat with
    | 0 => .aUnknown0 id
    | 1 => .aLocked id
    | 2 => .aUnlocked id
    | 3 => .aOpen3 id
    | 4 => .aHome id
    | 5 => .aMotion id
    | 6 => .aOpen6 id
    | 7 => .aUnknown7 id
    | 8 => .aSos id
    | 9 => .aClose id
    | 10 => .aUnknownA id
    | 11 => .aUnknownB id
    | 12 => .aUnknownC id
    | 13 => .aUnknownD id
    | 14 => .aUnknownE id
    | _ => .aUnknownF id
  | .B => match cmd.toNat with
    | 0 => .bUnknown0 id
    | 1 => .bUnknown1 id
    | 2 => .bUnknown2 id
    | 3 => .bUnknown3 id
    | 4 => .bUnknown4 id
    | 5 => .bUnknown5 id
    | 6 => .bClose id
    | 7 => .bSos id
    | 8 => .bUnknown8 id
    | 9 => .bOpen9 id
    | 10 => .bMotion id
    | 11 => .bHome id
    | 12 => .bOpenC id
    | 13 => .bUnlocked id
    | 14 => .bLocked id
    | _ => .bUnknownF id

/-- Why a row carries no command (R97). -/
inductive DecodeError where
  /-- The row is not exactly 25 bits long: not a Frame (R80, R87). -/
  | notAFrame
  /-- Revision A and a raw payload of 24 zero bits: an illegal encoding (R97, R126). -/
  | allZeroPayload
  deriving DecidableEq, Repr

/-- The command in three raw payload bytes (R133 followed by R95). -/
def decodeBytes (rev : Rev) (b0 b1 b2 : Byte) : Except DecodeError Instr :=
  if rev = .A ∧ allZero b0 b1 b2 then .error .allZeroPayload
  else
    .ok (Instr.ofCommand rev (extractId (polarity rev b0) (polarity rev b1) (polarity rev b2))
      (extractCmd (polarity rev b2)))

/-- The decoder, total on any row: a row of exactly 25 bits carries its bytes in bits 0 to 7, 8 to 15 and 16 to 23,
first bit most significant, and bit 24 is ignored (R81, R82, R125). -/
def decodeRow (rev : Rev) (row : Row) : Except DecodeError Instr :=
  if row.length = Config.frameBits then
    decodeBytes rev (packBits 8 (row.take 8)) (packBits 8 ((row.drop 8).take 8)) (packBits 8 ((row.drop 16).take 8))
  else .error .notAFrame

/-- The revision a command belongs to (R95). -/
def Instr.rev : Instr → Rev
  | .aUnknown0 _ => .A
  | .aLocked _ => .A
  | .aUnlocked _ => .A
  | .aOpen3 _ => .A
  | .aHome _ => .A
  | .aMotion _ => .A
  | .aOpen6 _ => .A
  | .aUnknown7 _ => .A
  | .aSos _ => .A
  | .aClose _ => .A
  | .aUnknownA _ => .A
  | .aUnknownB _ => .A
  | .aUnknownC _ => .A
  | .aUnknownD _ => .A
  | .aUnknownE _ => .A
  | .aUnknownF _ => .A
  | .bUnknown0 _ => .B
  | .bUnknown1 _ => .B
  | .bUnknown2 _ => .B
  | .bUnknown3 _ => .B
  | .bUnknown4 _ => .B
  | .bUnknown5 _ => .B
  | .bClose _ => .B
  | .bSos _ => .B
  | .bUnknown8 _ => .B
  | .bOpen9 _ => .B
  | .bMotion _ => .B
  | .bHome _ => .B
  | .bOpenC _ => .B
  | .bUnlocked _ => .B
  | .bLocked _ => .B
  | .bUnknownF _ => .B

/-- The operand `id` of a command (R84). -/
def Instr.id : Instr → BitVec 20
  | .aUnknown0 id => id
  | .aLocked id => id
  | .aUnlocked id => id
  | .aOpen3 id => id
  | .aHome id => id
  | .aMotion id => id
  | .aOpen6 id => id
  | .aUnknown7 id => id
  | .aSos id => id
  | .aClose id => id
  | .aUnknownA id => id
  | .aUnknownB id => id
  | .aUnknownC id => id
  | .aUnknownD id => id
  | .aUnknownE id => id
  | .aUnknownF id => id
  | .bUnknown0 id => id
  | .bUnknown1 id => id
  | .bUnknown2 id => id
  | .bUnknown3 id => id
  | .bUnknown4 id => id
  | .bUnknown5 id => id
  | .bClose id => id
  | .bSos id => id
  | .bUnknown8 id => id
  | .bOpen9 id => id
  | .bMotion id => id
  | .bHome id => id
  | .bOpenC id => id
  | .bUnlocked id => id
  | .bLocked id => id
  | .bUnknownF id => id

/-- The command code of a command (R95). -/
def Instr.cmd : Instr → BitVec 4
  | .aUnknown0 _ => 0x0#4
  | .aLocked _ => 0x1#4
  | .aUnlocked _ => 0x2#4
  | .aOpen3 _ => 0x3#4
  | .aHome _ => 0x4#4
  | .aMotion _ => 0x5#4
  | .aOpen6 _ => 0x6#4
  | .aUnknown7 _ => 0x7#4
  | .aSos _ => 0x8#4
  | .aClose _ => 0x9#4
  | .aUnknownA _ => 0xa#4
  | .aUnknownB _ => 0xb#4
  | .aUnknownC _ => 0xc#4
  | .aUnknownD _ => 0xd#4
  | .aUnknownE _ => 0xe#4
  | .aUnknownF _ => 0xf#4
  | .bUnknown0 _ => 0x0#4
  | .bUnknown1 _ => 0x1#4
  | .bUnknown2 _ => 0x2#4
  | .bUnknown3 _ => 0x3#4
  | .bUnknown4 _ => 0x4#4
  | .bUnknown5 _ => 0x5#4
  | .bClose _ => 0x6#4
  | .bSos _ => 0x7#4
  | .bUnknown8 _ => 0x8#4
  | .bOpen9 _ => 0x9#4
  | .bMotion _ => 0xa#4
  | .bHome _ => 0xb#4
  | .bOpenC _ => 0xc#4
  | .bUnlocked _ => 0xd#4
  | .bLocked _ => 0xe#4
  | .bUnknownF _ => 0xf#4

/-- Format PL24 (R84): `id` in bits 23 to 4, `cmd` in bits 3 to 0. -/
def payloadOf (id : BitVec 20) (cmd : BitVec 4) : BitVec 24 := id ++ cmd

/-- Format RAW24 from the logical payload (R83, R99): Revision A inverts every bit. -/
def rawOf (rev : Rev) (p : BitVec 24) : BitVec 24 :=
  match rev with
  | .A => p ^^^ 0xFFFFFF#24
  | .B => p

/-- Format ROW25 (R81, R82, R99): the 24 raw bits, most significant first, then the sync bit. -/
def frameOf (rev : Rev) (p : BitVec 24) (sync : Bool) : Row := unpackBits (rawOf rev p) ++ [sync]

/-- The encoder `Enc` and `Frame` of R99: the row that carries command `i` with sync bit `sync`. -/
def encode (i : Instr) (sync : Bool) : Row := frameOf i.rev (payloadOf i.id i.cmd) sync

/-- A word as spec/opcode_table.json numbers it: bits 23 to 0 of PL24, whatever lies above `nbits` being zero. -/
def tablePayload (nbits w : Nat) : BitVec 24 := BitVec.ofNat 24 (w % 2 ^ nbits)

/-- What the decoder reads from the Frame that carries a table word. The word does not name its revision (R87), and a
row applies only to its own (R95): it is laid out and read under the strap of `State.reset`; log 2. -/
def decodeTableWord (nbits w : Nat) : Option Instr :=
  match decodeRow Config.strapAtReset (frameOf Config.strapAtReset (tablePayload nbits w) false) with
  | .ok i => some i
  | .error _ => none

end Sys2Proof
end

