-- ==== Sys2Proof/Machine/State.lean ====
section
/-! DEFINITION. The state of one FDCD and of what it exchanges with its surroundings (spec/10_state.md), the state
after reset, and the reasons a step can stop. -/

namespace Sys2Proof.Machine

/-- The stage sequencer's five values (R26). Values 5, 6 and 7 are never taken. -/
inductive Pc where
  | idle
  | locate
  | decode
  | classify
  | emit
  deriving DecidableEq, Repr

/-- The eight state labels (R30). -/
inductive StateLabel where
  | unknown
  | motion
  | opened
  | closed
  | locked
  | unlocked
  | home
  | sos
  deriving DecidableEq, Repr

/-- The field selector `fsel` (R30): which conditional field a record carries. -/
inductive FieldSel where
  | absent
  | motion
  | opened
  | button
  | lock
  | unlock
  | home
  | sos
  deriving DecidableEq, Repr

/-- The five outcomes an invocation can end with (R31, R215). The value `None` of the output is `State.result = none`. -/
inductive Ending where
  | eventProduced
  | noRepeatedFrame
  | lengthMismatch
  | sanityFailure
  | unclassifiableCommand
  deriving DecidableEq, Repr

/-- The four result codes (R31, R32). -/
inductive ResultCode where
  | ok
  | abortLength
  | abortEarly
  | failSanity
  deriving DecidableEq, Repr

/-- The keys of an Event Record (R180, R187). -/
inductive Key where
  | model
  | id
  | cmd
  | motion
  | opened
  | button
  | lock
  | unlock
  | home
  | sos
  | state
  deriving DecidableEq, Repr

/-- A value of an Event Record (R180, R185): an integer, an integer with the format hint "lowercase hexadecimal", or a
string. -/
inductive Value where
  | integer (n : Nat)
  | hexInteger (n : Nat)
  | text (t : String)
  deriving DecidableEq, Repr

/-- An Event Record: an ordered list of (key, value) pairs (R180). -/
abbrev EventRecord := List (Key × Value)

/-- The working registers that hold a value once LOAD has run (R24, R125). -/
structure PayloadRegs where
  r : Nat
  b0 : Byte
  b1 : Byte
  b2 : Byte
  deriving DecidableEq, Repr

/-- The working registers that hold a value once EXTRACT has run (R24, R129, R130). -/
structure CommandRegs where
  payload : PayloadRegs
  id : BitVec 20
  cmd : BitVec 4
  deriving DecidableEq, Repr

/-- The working registers that hold a value once the command has run (R24): all nine. `label = none` is the register
value with presence bit 0 (R30). -/
structure ClassifiedRegs where
  command : CommandRegs
  label : Option StateLabel
  fsel : FieldSel
  fval : BitVec 2
  deriving DecidableEq, Repr

/-- Where an invocation stands, with exactly the working registers that hold a value there. R25: at the start of an
invocation every working register holds no value, no rule reads one before it is written, and a model gives none an
initial value and carries none over; so a register exists here from the operation that writes it to the end of the
invocation (log 4). -/
inductive Stage where
  /-- `pc` = IDLE: waiting for `start`. -/
  | idle
  /-- `pc` = LOCATE: the Frame Locator acts next. -/
  | locate
  /-- `pc` = DECODE: LOAD is next (R125). -/
  | decode (r : Nat)
  /-- `pc` = DECODE: `b0`, `b1`, `b2` are loaded; SANITY is next in Revision A, EXTRACT in Revision B (R133). -/
  | loaded (p : PayloadRegs)
  /-- `pc` = DECODE: SANITY has passed; INVERT is next (R127). -/
  | sane (p : PayloadRegs)
  /-- `pc` = DECODE: the bytes are inverted; EXTRACT is next (R129). -/
  | inverted (p : PayloadRegs)
  /-- `pc` = CLASSIFY: the command in `cmd` is next (R151, R170). -/
  | classify (c : CommandRegs)
  /-- `pc` = CLASSIFY: the command has run; the guard is next (R150). -/
  | classified (k : ClassifiedRegs)
  /-- `pc` = EMIT: the record is to be assembled, or has been (R181). -/
  | emit (k : ClassifiedRegs)
  deriving DecidableEq, Repr

/-- The event port while `ev_valid` = 1 (R33). -/
structure EventPort where
  evModel : BitVec 1
  evId : BitVec 20
  evCmd : BitVec 4
  evFsel : BitVec 3
  evFval : BitVec 2
  evState : BitVec 3
  deriving DecidableEq, Repr

/-- The result outputs while `done` = 1 (R31). -/
structure ResultPort where
  outcome : Ending
  code : ResultCode
  events : BitVec 1
  deriving DecidableEq, Repr

/-- The machine: one FDCD, and what stands on and beyond its ports. -/
structure State where
  /-- `REV` (R28): the strap. No operation writes it. -/
  rev : Rev
  /-- `pc` and the working registers (R24 to R26). -/
  stage : Stage
  /-- The event port (R33): `none` is `ev_valid` = 0, when the other `ev_*` outputs have no value. -/
  ev : Option EventPort
  /-- The result outputs (R31): `none` is `done` = 0, `outcome` = `None`, when `code` and `events` have no meaning. -/
  result : Option ResultPort
  /-- `diag_sanity` (R35). -/
  diagSanity : Bool
  /-- The reset line (R245): reset arrives at the next step. An input; log 17. -/
  rst : Bool
  /-- The Capture on the read port (R50 to R54). The dispatcher's; the block only reads it. -/
  cap : Capture
  /-- The Captures the dispatcher has still to offer, in order (R204). The dispatcher's; log 6. -/
  offers : List Capture
  /-- The records the sink has taken, oldest first (R186). The sink's; no rule of the block reads it; log 19. -/
  sink : List EventRecord
  /-- The results the dispatcher has received, oldest first (R199). The dispatcher's; no rule of the block reads it; log 19. -/
  results : List ResultPort
  deriving DecidableEq, Repr

/-- Why a step faults. -/
inductive Fault where
  /-- LOAD reads a position of the Capture that does not exist (R51). Raised by LOAD only where `r` is not the index of
  a row of at least 24 bits, which never holds after LOCATE (R58). Safe; log 23. -/
  | noSuchPosition
  /-- EMIT with `label` = `none`: the spec names no state string for it. Raised by EMIT only in a state whose `label` no
  table entry wrote (R140, R160). Safe; log 22. -/
  | noLabel
  deriving DecidableEq, Repr

/-- Why a step is refused. -/
inductive Refusal where
  /-- No meaning yet for the instruction named. No arm of `exec` raises it. Safe. -/
  | notModelled (mnemonic : String)
  /-- START on a structure that is not a Capture (R61: "a model should refuse it at its boundary"). Safe; log 9. -/
  | notACapture
  /-- `exec` of a command that is not the one in `cmd` and `id` of an instance of its revision in CLASSIFY: no rule gives
  it an effect there (R95, headers of files 42 and 43). The step function never asks for it. Safe; log 21. -/
  | commandNotPending
  deriving DecidableEq, Repr

/-- An FDCD of revision `rev` right after reset (R39, R245): `pc` = IDLE, no working register holds a value, `done`,
`ev_valid` and `diag_sanity` low, `outcome` = `None`. Around it nothing has been offered, taken or received: logs 6, 8, 19. -/
def State.resetOf (rev : Rev) : State where
  rev := rev
  stage := .idle
  ev := none
  result := none
  diagSanity := false
  rst := false
  cap := []
  offers := []
  sink := []
  results := []

/-- The machine right after reset. DESIGN CHOICE for `rev` only: the spec fixes `REV` per instance and names no value (R28);
log 1. -/
def State.reset : State := State.resetOf Config.strapAtReset

end Sys2Proof.Machine
end

