-- ==== Sys2Proof/Machine/Operands.lean ====
section
/-! DEFINITION. What the block reads: the Capture through its read port (spec/20_memory.md R50 to R60) and its own
registers (spec/10_state.md R24, R26). -/

namespace Sys2Proof.Machine

/-- `Cap.nrows` (R51, R52). -/
def nrows (cap : Capture) : Nat := cap.length

/-- `Cap.len[r]` (R51, R52): `none` where row `r` does not exist. -/
def rowLen (cap : Capture) (r : Nat) : Option Nat := cap[r]?.map List.length

/-- `Cap.bit[r][i]` (R51, R52): `none` where the position does not exist. -/
def bitAt (cap : Capture) (r i : Nat) : Option Bool := cap[r]?.bind (fun row => row[i]?)

/-- `MemRead((r, i), n)` (R12, R55): bits `i` to `i+n-1` of row `r`, bit `i` most significant; no value outside
`r < Cap.nrows` and `i + n <= Cap.len[r]`. -/
def memRead (cap : Capture) (r i n : Nat) : Option (BitVec n) :=
  match cap[r]? with
  | some row => if i + n ≤ row.length then some (packBits n ((row.drop i).take n)) else none
  | none => none

/-- `RowEq(r, s)` (R12, R56): both rows exist and have the same length and the same bits, the sync bit included; log 13. -/
def rowEq (cap : Capture) (r s : Nat) : Bool :=
  match cap[r]?, cap[s]? with
  | some x, some y => decide (x = y)
  | _, _ => false

/-- The working registers of the payload, where they hold a value (R24). -/
def Stage.payload? : Stage → Option PayloadRegs
  | .idle => none
  | .locate => none
  | .decode _ => none
  | .loaded p => some p
  | .sane p => some p
  | .inverted p => some p
  | .classify c => some c.payload
  | .classified k => some k.command.payload
  | .emit k => some k.command.payload

/-- `r`, where it holds a value (R24, R25). -/
def Stage.r? : Stage → Option Nat
  | .decode r => some r
  | st => st.payload?.map PayloadRegs.r

/-- `id` and `cmd`, where they hold a value (R24, R25). -/
def Stage.command? : Stage → Option CommandRegs
  | .classify c => some c
  | .classified k => some k.command
  | .emit k => some k.command
  | .idle => none
  | .locate => none
  | .decode _ => none
  | .loaded _ => none
  | .sane _ => none
  | .inverted _ => none

/-- `label`, `fsel` and `fval`, where they hold a value (R24, R25). -/
def Stage.classified? : Stage → Option ClassifiedRegs
  | .classified k => some k
  | .emit k => some k
  | .idle => none
  | .locate => none
  | .decode _ => none
  | .loaded _ => none
  | .sane _ => none
  | .inverted _ => none
  | .classify _ => none

/-- The value of the stage sequencer (R26). -/
def State.pc (s : State) : Pc :=
  match s.stage with
  | .idle => .idle
  | .locate => .locate
  | .decode _ => .decode
  | .loaded _ => .decode
  | .sane _ => .decode
  | .inverted _ => .decode
  | .classify _ => .classify
  | .classified _ => .classify
  | .emit _ => .emit

/-- The input `start` (R34, R195): the dispatcher raises it in IDLE when it has a Capture to offer; log 6. -/
def State.start (s : State) : Bool := s.pc == .idle && !s.offers.isEmpty

/-- The registration constants the machine presents (R36). -/
def State.registration (s : State) : Config.Registration := Config.registration s.rev

end Sys2Proof.Machine
end

