-- ==== Sys2Proof/Machine/Tables.lean ====
section
/-! DEFINITION. The numeric encodings of spec/10_state.md R26, R28, R30, R31 and the two Command Table ROMs
(R29, spec/42_classifier_rev_a.md R140, spec/43_classifier_rev_b.md R160). -/

namespace Sys2Proof.Machine

/-- `pc` as 3 bits (R26). -/
def Pc.number : Pc → BitVec 3
  | .idle => 0
  | .locate => 1
  | .decode => 2
  | .classify => 3
  | .emit => 4

/-- `REV` as 1 bit (R28), and `ev_model` (R33). -/
def revBit : Rev → BitVec 1
  | .A => 0
  | .B => 1

/-- The revision a `REV` bit names (R28). -/
def revOfBit (b : BitVec 1) : Rev := if b = 0 then .A else .B

/-- State code `label[2:0]` (R30). -/
def StateLabel.number : StateLabel → BitVec 3
  | .unknown => 0
  | .motion => 1
  | .opened => 2
  | .closed => 3
  | .locked => 4
  | .unlocked => 5
  | .home => 6
  | .sos => 7

/-- The state label of a state code (R30). -/
def StateLabel.ofNumber (v : BitVec 3) : StateLabel :=
  match v.toNat with
  | 0 => .unknown
  | 1 => .motion
  | 2 => .opened
  | 3 => .closed
  | 4 => .locked
  | 5 => .unlocked
  | 6 => .home
  | _ => .sos

/-- The string handed to the sink for a state label (R30). -/
def StateLabel.text : StateLabel → String
  | .unknown => "unknown"
  | .motion => "motion"
  | .opened => "open"
  | .closed => "close"
  | .locked => "locked"
  | .unlocked => "unlocked"
  | .home => "home"
  | .sos => "sos"

/-- The register `label` as 4 bits (R30): presence bit, then state code. The three low bits under presence 0 are the
model's (DESIGN CHOICE, log 24); no rule reads them. -/
def labelNumber : Option StateLabel → BitVec 4
  | some l => 1#1 ++ l.number
  | none => 0#4

/-- Field selector `fsel` (R30). -/
def FieldSel.number : FieldSel → BitVec 3
  | .absent => 0
  | .motion => 1
  | .opened => 2
  | .button => 3
  | .lock => 4
  | .unlock => 5
  | .home => 6
  | .sos => 7

/-- The field selector of a 3-bit code (R30). -/
def FieldSel.ofNumber (v : BitVec 3) : FieldSel :=
  match v.toNat with
  | 0 => .absent
  | 1 => .motion
  | 2 => .opened
  | 3 => .button
  | 4 => .lock
  | 5 => .unlock
  | 6 => .home
  | _ => .sos

/-- The output `outcome` (R31): 0 is `None`. -/
def outcomeNumber : Option Ending → BitVec 3
  | none => 0
  | some .eventProduced => 1
  | some .noRepeatedFrame => 2
  | some .lengthMismatch => 3
  | some .sanityFailure => 4
  | some .unclassifiableCommand => 5

/-- The output `code` (R31). -/
def ResultCode.number : ResultCode → BitVec 2
  | .ok => 0
  | .abortLength => 1
  | .abortEarly => 2
  | .failSanity => 3

/-- The lowercase ASCII string of a key (R180). -/
def Key.text : Key → String
  | .model => "model"
  | .id => "id"
  | .cmd => "cmd"
  | .motion => "motion"
  | .opened => "opened"
  | .button => "button"
  | .lock => "lock"
  | .unlock => "unlock"
  | .home => "home"
  | .sos => "sos"
  | .state => "state"

/-- Command Table A (R140), the 16 entries in the order of `cmd`. -/
def tableA : List (BitVec 8) :=
  [0x00, 0x8c, 0xad, 0x49, 0xce, 0x25, 0x49, 0x00, 0xef, 0x68, 0x00, 0x00, 0x00, 0x00, 0x00, 0x00]

/-- Command Table B (R160), the 16 entries in the order of `cmd`. -/
def tableB : List (BitVec 8) :=
  [0x00, 0x00, 0x00, 0x00, 0x00, 0x00, 0x68, 0xfd, 0x00, 0x49, 0x25, 0xd9, 0x49, 0xb5, 0x91, 0x00]

/-- The entry of a revision's Command Table at address `cmd` (R29). -/
def tableEntry (rev : Rev) (cmd : BitVec 4) : BitVec 8 :=
  match rev with
  | .A => tableA.getD cmd.toNat 0
  | .B => tableB.getD cmd.toNat 0

/-- `entry[7:5]`: the state label of an entry; every entry has one (R29). -/
def entryLabel (e : BitVec 8) : StateLabel := StateLabel.ofNumber (e.extractLsb' 5 3)

/-- `entry[4:2]`: the field selector of an entry (R29). -/
def entryFsel (e : BitVec 8) : FieldSel := FieldSel.ofNumber (e.extractLsb' 2 3)

/-- `entry[1:0]`: the field value of an entry (R29). -/
def entryFval (e : BitVec 8) : BitVec 2 := e.extractLsb' 0 2

end Sys2Proof.Machine
end

