-- ==== Sys2Proof/Machine/Flags.lean ====
section
/-! DEFINITION. FDCD has no flag (spec/10_state.md R27): the only value that tells how an invocation went is its
outcome. Here are the two functions of the outcome that go out with it (R32). -/

namespace Sys2Proof.Machine

/-- `code` as a function of `outcome` (R32). -/
def Ending.code : Ending → ResultCode
  | .eventProduced => .ok
  | .noRepeatedFrame => .abortLength
  | .lengthMismatch => .abortLength
  | .sanityFailure => .failSanity
  | .unclassifiableCommand => .abortEarly

/-- `events` as a function of `outcome` (R32). -/
def Ending.events : Ending → BitVec 1
  | .eventProduced => 1
  | .noRepeatedFrame => 0
  | .lengthMismatch => 0
  | .sanityFailure => 0
  | .unclassifiableCommand => 0

/-- The three result outputs for an outcome (R31, R32, R199). -/
def Ending.port (o : Ending) : ResultPort where
  outcome := o
  code := o.code
  events := o.events

end Sys2Proof.Machine
end

