-- ==== Sys2Proof/Machine/Ops.lean ====
section
/-! DEFINITION. The operations over the state that the stages and commands share: START, RETURN, aborting, reset, and
the write of a classification. -/

namespace Sys2Proof.Machine

/-- START (R195): the dispatcher's Capture `c` stands on the read port and `start` is raised in IDLE. A structure that
is not a Capture is refused here, at the boundary (R61). -/
def startOn (c : Capture) (rest : List Capture) (s : State) : Host.Outcome State Fault Refusal :=
  if Capture.wf c then .next { s with cap := c, offers := rest, stage := .locate }
  else .refused .notACapture

/-- RETURN, first half (R199): `done` is raised with `outcome`, `code` and `events`, and the dispatcher receives them.
`pc` stays where it is until the handshake is over. DESIGN CHOICE: the result counts as received in this step, so a reset
that arrives while `done` = 1 does not take it back; R245 is silent on that instant (log 35). -/
def raiseDone (o : Ending) (s : State) : State :=
  { s with result := some o.port, results := s.results ++ [o.port] }

/-- RETURN, second half (R199, R228): `done` is lowered, `outcome` goes back to `None`, `pc` to IDLE; nothing of the
invocation is kept (R20). The pulse of `diag_sanity` ends here (R35; log 20). -/
def finishReturn (s : State) : State :=
  { s with result := none, diagSanity := false, stage := .idle }

/-- `raise <Abort>(cause)` (R216, R227): no record is assembled, `ev_valid` stays 0, no later stage acts, and the cause
is returned. The sanity failure also pulses `diag_sanity` when `VERBOSE` is true (R35, R218); that it rises with `done` is the model's choice (log 20). -/
def raiseAbort (cause : Ending) (s : State) : State :=
  raiseDone cause { s with diagSanity := cause == .sanityFailure && Config.verbose }

/-- Reset (R39, R245): `pc` = IDLE, `done`, `ev_valid` and `diag_sanity` low, `outcome` = `None`, no working register
holds a value. An invocation in progress is abandoned without a result; `REV` and the Capture are not touched.
DESIGN CHOICE: where the reset arrives while `done` = 1, inside the result handshake, it lowers `done` and ends the
handshake, and the result that the dispatcher has received since `done` rose stays received (log 35). -/
def applyReset (s : State) : State :=
  { s with rst := false, stage := .idle, ev := none, result := none, diagSanity := false }

/-- What every rule R141 to R149 and R161 to R169 does: `if REV = rev and x[cmd] = code`, write `label` (present),
`fsel` and `fval`, and nothing else. Elsewhere no such command is at hand (log 21). -/
def classifyAs (rev : Rev) (code : BitVec 4) (id : BitVec 20) (label : StateLabel) (fsel : FieldSel) (fval : BitVec 2)
    (s : State) : Host.Outcome State Fault Refusal :=
  match s.stage with
  | .classify c =>
    if s.rev = rev ∧ c.cmd = code ∧ c.id = id then
      .next { s with stage := .classified ⟨c, some label, fsel, fval⟩ }
    else .refused .commandNotPending
  | .idle => .refused .commandNotPending
  | .locate => .refused .commandNotPending
  | .decode _ => .refused .commandNotPending
  | .loaded _ => .refused .commandNotPending
  | .sane _ => .refused .commandNotPending
  | .inverted _ => .refused .commandNotPending
  | .classified _ => .refused .commandNotPending
  | .emit _ => .refused .commandNotPending

/-- The guard (R150, R151): Revision A ends the invocation if classification produced no label. Revision B has no guard
(R170). Otherwise `pc <- EMIT`. -/
def guardLabel (k : ClassifiedRegs) (s : State) : State :=
  if s.rev = .A ∧ k.label = none then raiseAbort .unclassifiableCommand s
  else { s with stage := .emit k }

end Sys2Proof.Machine
end

