-- ==== Sys2Proof/Machine/Locator.lean ====
section
/-! DEFINITION. The Frame Locator: operation LOCATE (spec/40_frame_locator.md). It does not read `REV`. -/

namespace Sys2Proof.Machine

/-- `Rep(r)` (R111): row `r` repeats in the next consecutive row. -/
def rep (cap : Capture) (r : Nat) : Bool := decide (r + 1 < nrows cap) && rowEq cap r (r + 1)

/-- `Qual(r)` (R111): `Rep(r)` and row `r` is exactly 25 bits long. -/
def qual (cap : Capture) (r : Nat) : Bool := rep cap r && rowLen cap r == some Config.frameBits

/-- `min { r | Qual(r) }` (R112), or nothing when no index satisfies `Qual`; log 14. -/
def locateFrame (cap : Capture) : Option Nat := (List.range (nrows cap)).find? (qual cap)

/-- The cause of the locator's abort (R114); log 15. -/
def locateCause (cap : Capture) : Ending :=
  if (List.range (nrows cap)).any (rep cap) then .lengthMismatch else .noRepeatedFrame

/-- LOCATE (R112, R113): write `r` and go to DECODE, or abort. -/
def locate (s : State) : State :=
  match locateFrame s.cap with
  | some r => { s with stage := .decode r }
  | none => raiseAbort (locateCause s.cap) s

end Sys2Proof.Machine
end

