-- ==== Sys2Proof/Machine/Payload.lean ====
section
/-! DEFINITION. The Payload Decoder: operations LOAD, SANITY, INVERT, EXTRACT (spec/41_payload_decoder.md). -/

namespace Sys2Proof.Machine

/-- LOAD (R125): the three byte reads of row `r`, at bits 0, 8 and 16. -/
def load (r : Nat) (s : State) : Host.Outcome State Fault Refusal :=
  match memRead s.cap r 0 8, memRead s.cap r 8 8, memRead s.cap r 16 8 with
  | some b0, some b1, some b2 => .next { s with stage := .loaded ⟨r, b0, b1, b2⟩ }
  | _, _, _ => .fault .noSuchPosition

/-- SANITY (R126): three zero raw bytes end the invocation. -/
def sanity (p : PayloadRegs) (s : State) : State :=
  if allZero p.b0 p.b1 p.b2 then raiseAbort .sanityFailure s
  else { s with stage := .sane p }

/-- INVERT (R127): the three working registers are inverted; the Capture is not. -/
def invert (p : PayloadRegs) (s : State) : State :=
  { s with stage := .inverted ⟨p.r, invertByte p.b0, invertByte p.b1, invertByte p.b2⟩ }

/-- EXTRACT (R129, R130): write `id` and `cmd`, `pc <- CLASSIFY`. -/
def extract (p : PayloadRegs) (s : State) : State :=
  { s with stage := .classify ⟨p, extractId p.b0 p.b1 p.b2, extractCmd p.b2⟩ }

end Sys2Proof.Machine
end

