-- ==== Sys2Proof/Machine/Emitter.lean ====
section
/-! DEFINITION. The Event Emitter and the Event Record (spec/44_event_emitter.md). -/

namespace Sys2Proof.Machine

/-- `ModelLabel(REV)` (R182). -/
def modelLabel : Rev → String
  | .A => Config.modelLabelA
  | .B => Config.modelLabelB

/-- The string of a `button` field (R30, R183). -/
def buttonText (fval : BitVec 2) : String :=
  match fval.toNat with
  | 0 => "lock"
  | 1 => "unlock"
  | 2 => "home"
  | _ => "sos"

/-- `CondField(fsel, fval)` (R183): at most one pair. -/
def condField (fsel : FieldSel) (fval : BitVec 2) : EventRecord :=
  match fsel with
  | .absent => []
  | .motion => [(.motion, .integer fval.toNat)]
  | .opened => [(.opened, .integer fval.toNat)]
  | .button => [(.button, .text (buttonText fval))]
  | .lock => [(.lock, .integer fval.toNat)]
  | .unlock => [(.unlock, .integer fval.toNat)]
  | .home => [(.home, .integer fval.toNat)]
  | .sos => [(.sos, .integer fval.toNat)]

/-- The record of an event (R180, R181): model, id, cmd, the conditional field if any, the state label last. `id` and
`cmd` are integers to be shown in lowercase hexadecimal (R185; log 32). -/
def eventRecord (rev : Rev) (id : BitVec 20) (cmd : BitVec 4) (label : StateLabel) (fsel : FieldSel)
    (fval : BitVec 2) : EventRecord :=
  [(.model, .text (modelLabel rev)), (.id, .hexInteger id.toNat), (.cmd, .hexInteger cmd.toNat)]
    ++ condField fsel fval ++ [(.state, .text label.text)]

/-- The event port's values for an event (R184). -/
def eventPort (rev : Rev) (id : BitVec 20) (cmd : BitVec 4) (label : StateLabel) (fsel : FieldSel)
    (fval : BitVec 2) : EventPort where
  evModel := revBit rev
  evId := id
  evCmd := cmd
  evFsel := fsel.number
  evFval := fval
  evState := label.number

/-- The record a sink rebuilds from the port's values and the tables of R30 (R184). -/
def recordOfPort (e : EventPort) : EventRecord :=
  eventRecord (revOfBit e.evModel) e.evId e.evCmd (StateLabel.ofNumber e.evState) (FieldSel.ofNumber e.evFsel) e.evFval

/-- EMIT (R181, R186): the record is assembled and handed over, `ev_valid` being raised with the values of R184; the
sink takes it as it is offered (log 18). -/
def emitEvent (k : ClassifiedRegs) (s : State) : Host.Outcome State Fault Refusal :=
  match k.label with
  | some l =>
    .next { s with
      ev := some (eventPort s.rev k.command.id k.command.cmd l k.fsel k.fval)
      sink := s.sink ++ [eventRecord s.rev k.command.id k.command.cmd l k.fsel k.fval] }
  | none => .fault .noLabel

/-- The end of EMIT (R186, R199): `ev_valid` is lowered, and then the result handshake reports `EventProduced`. -/
def endEmit (s : State) : State := raiseDone .eventProduced { s with ev := none }

end Sys2Proof.Machine
end

