-- ==== Sys2Proof/Machine/RevisionA.lean ====
section
/-! DEFINITION. The 16 commands of Revision A (spec/42_classifier_rev_a.md). Each writes `label`, `fsel`, `fval` and nothing else. -/

namespace Sys2Proof.Machine

/-- `A.UNKNOWN(0x0)` (R149): `cmd` = 0x0, state `unknown`, no conditional field. -/
def execAUnknown0 (id : BitVec 20) (s : State) : Host.Outcome State Fault Refusal :=
  classifyAs .A 0x0#4 id .unknown .absent 0 s

/-- `A.LOCKED` (R145): `cmd` = 0x1, state `locked`, `button` = lock. -/
def execALocked (id : BitVec 20) (s : State) : Host.Outcome State Fault Refusal :=
  classifyAs .A 0x1#4 id .locked .button 0 s

/-- `A.UNLOCKED` (R146): `cmd` = 0x2, state `unlocked`, `button` = unlock. -/
def execAUnlocked (id : BitVec 20) (s : State) : Host.Outcome State Fault Refusal :=
  classifyAs .A 0x2#4 id .unlocked .button 1 s

/-- `A.OPEN3` (R143): `cmd` = 0x3, state `open`, `opened` = 1. -/
def execAOpen3 (id : BitVec 20) (s : State) : Host.Outcome State Fault Refusal :=
  classifyAs .A 0x3#4 id .opened .opened 1 s

/-- `A.HOME` (R147): `cmd` = 0x4, state `home`, `button` = home. -/
def execAHome (id : BitVec 20) (s : State) : Host.Outcome State Fault Refusal :=
  classifyAs .A 0x4#4 id .home .button 2 s

/-- `A.MOTION` (R141): `cmd` = 0x5, state `motion`, `motion` = 1. -/
def execAMotion (id : BitVec 20) (s : State) : Host.Outcome State Fault Refusal :=
  classifyAs .A 0x5#4 id .motion .motion 1 s

/-- `A.OPEN6` (R142): `cmd` = 0x6, state `open`, `opened` = 1. -/
def execAOpen6 (id : BitVec 20) (s : State) : Host.Outcome State Fault Refusal :=
  classifyAs .A 0x6#4 id .opened .opened 1 s

/-- `A.UNKNOWN(0x7)` (R149): `cmd` = 0x7, state `unknown`, no conditional field. -/
def execAUnknown7 (id : BitVec 20) (s : State) : Host.Outcome State Fault Refusal :=
  classifyAs .A 0x7#4 id .unknown .absent 0 s

/-- `A.SOS` (R148): `cmd` = 0x8, state `sos`, `button` = sos. -/
def execASos (id : BitVec 20) (s : State) : Host.Outcome State Fault Refusal :=
  classifyAs .A 0x8#4 id .sos .button 3 s

/-- `A.CLOSE` (R144): `cmd` = 0x9, state `close`, `opened` = 0. -/
def execAClose (id : BitVec 20) (s : State) : Host.Outcome State Fault Refusal :=
  classifyAs .A 0x9#4 id .closed .opened 0 s

/-- `A.UNKNOWN(0xa)` (R149): `cmd` = 0xa, state `unknown`, no conditional field. -/
def execAUnknownA (id : BitVec 20) (s : State) : Host.Outcome State Fault Refusal :=
  classifyAs .A 0xa#4 id .unknown .absent 0 s

/-- `A.UNKNOWN(0xb)` (R149): `cmd` = 0xb, state `unknown`, no conditional field. -/
def execAUnknownB (id : BitVec 20) (s : State) : Host.Outcome State Fault Refusal :=
  classifyAs .A 0xb#4 id .unknown .absent 0 s

/-- `A.UNKNOWN(0xc)` (R149): `cmd` = 0xc, state `unknown`, no conditional field. -/
def execAUnknownC (id : BitVec 20) (s : State) : Host.Outcome State Fault Refusal :=
  classifyAs .A 0xc#4 id .unknown .absent 0 s

/-- `A.UNKNOWN(0xd)` (R149): `cmd` = 0xd, state `unknown`, no conditional field. -/
def execAUnknownD (id : BitVec 20) (s : State) : Host.Outcome State Fault Refusal :=
  classifyAs .A 0xd#4 id .unknown .absent 0 s

/-- `A.UNKNOWN(0xe)` (R149): `cmd` = 0xe, state `unknown`, no conditional field. -/
def execAUnknownE (id : BitVec 20) (s : State) : Host.Outcome State Fault Refusal :=
  classifyAs .A 0xe#4 id .unknown .absent 0 s

/-- `A.UNKNOWN(0xf)` (R149): `cmd` = 0xf, state `unknown`, no conditional field. -/
def execAUnknownF (id : BitVec 20) (s : State) : Host.Outcome State Fault Refusal :=
  classifyAs .A 0xf#4 id .unknown .absent 0 s

end Sys2Proof.Machine
end

