-- ==== Sys2Proof/Machine/RevisionB.lean ====
section
/-! DEFINITION. The 16 commands of Revision B (spec/43_classifier_rev_b.md). Each writes `label`, `fsel`, `fval` and nothing else. -/

namespace Sys2Proof.Machine

/-- `B.UNKNOWN(0x0)` (R169): `cmd` = 0x0, state `unknown`, no conditional field. -/
def execBUnknown0 (id : BitVec 20) (s : State) : Host.Outcome State Fault Refusal :=
  classifyAs .B 0x0#4 id .unknown .absent 0 s

/-- `B.UNKNOWN(0x1)` (R169): `cmd` = 0x1, state `unknown`, no conditional field. -/
def execBUnknown1 (id : BitVec 20) (s : State) : Host.Outcome State Fault Refusal :=
  classifyAs .B 0x1#4 id .unknown .absent 0 s

/-- `B.UNKNOWN(0x2)` (R169): `cmd` = 0x2, state `unknown`, no conditional field. -/
def execBUnknown2 (id : BitVec 20) (s : State) : Host.Outcome State Fault Refusal :=
  classifyAs .B 0x2#4 id .unknown .absent 0 s

/-- `B.UNKNOWN(0x3)` (R169): `cmd` = 0x3, state `unknown`, no conditional field. -/
def execBUnknown3 (id : BitVec 20) (s : State) : Host.Outcome State Fault Refusal :=
  classifyAs .B 0x3#4 id .unknown .absent 0 s

/-- `B.UNKNOWN(0x4)` (R169): `cmd` = 0x4, state `unknown`, no conditional field. -/
def execBUnknown4 (id : BitVec 20) (s : State) : Host.Outcome State Fault Refusal :=
  classifyAs .B 0x4#4 id .unknown .absent 0 s

/-- `B.UNKNOWN(0x5)` (R169): `cmd` = 0x5, state `unknown`, no conditional field. -/
def execBUnknown5 (id : BitVec 20) (s : State) : Host.Outcome State Fault Refusal :=
  classifyAs .B 0x5#4 id .unknown .absent 0 s

/-- `B.CLOSE` (R164): `cmd` = 0x6, state `close`, `opened` = 0. -/
def execBClose (id : BitVec 20) (s : State) : Host.Outcome State Fault Refusal :=
  classifyAs .B 0x6#4 id .closed .opened 0 s

/-- `B.SOS` (R168): `cmd` = 0x7, state `sos`, `sos` = 1. -/
def execBSos (id : BitVec 20) (s : State) : Host.Outcome State Fault Refusal :=
  classifyAs .B 0x7#4 id .sos .sos 1 s

/-- `B.UNKNOWN(0x8)` (R169): `cmd` = 0x8, state `unknown`, no conditional field. -/
def execBUnknown8 (id : BitVec 20) (s : State) : Host.Outcome State Fault Refusal :=
  classifyAs .B 0x8#4 id .unknown .absent 0 s

/-- `B.OPEN9` (R162): `cmd` = 0x9, state `open`, `opened` = 1. -/
def execBOpen9 (id : BitVec 20) (s : State) : Host.Outcome State Fault Refusal :=
  classifyAs .B 0x9#4 id .opened .opened 1 s

/-- `B.MOTION` (R161): `cmd` = 0xa, state `motion`, `motion` = 1. -/
def execBMotion (id : BitVec 20) (s : State) : Host.Outcome State Fault Refusal :=
  classifyAs .B 0xa#4 id .motion .motion 1 s

/-- `B.HOME` (R167): `cmd` = 0xb, state `home`, `home` = 1. -/
def execBHome (id : BitVec 20) (s : State) : Host.Outcome State Fault Refusal :=
  classifyAs .B 0xb#4 id .home .home 1 s

/-- `B.OPENC` (R163): `cmd` = 0xc, state `open`, `opened` = 1. -/
def execBOpenC (id : BitVec 20) (s : State) : Host.Outcome State Fault Refusal :=
  classifyAs .B 0xc#4 id .opened .opened 1 s

/-- `B.UNLOCKED` (R166): `cmd` = 0xd, state `unlocked`, `unlock` = 1. -/
def execBUnlocked (id : BitVec 20) (s : State) : Host.Outcome State Fault Refusal :=
  classifyAs .B 0xd#4 id .unlocked .unlock 1 s

/-- `B.LOCKED` (R165): `cmd` = 0xe, state `locked`, `lock` = 1. -/
def execBLocked (id : BitVec 20) (s : State) : Host.Outcome State Fault Refusal :=
  classifyAs .B 0xe#4 id .locked .lock 1 s

/-- `B.UNKNOWN(0xf)` (R169): `cmd` = 0xf, state `unknown`, no conditional field. -/
def execBUnknownF (id : BitVec 20) (s : State) : Host.Outcome State Fault Refusal :=
  classifyAs .B 0xf#4 id .unknown .absent 0 s

end Sys2Proof.Machine
end

