-- ==== Sys2Proof/Machine/Dispatch.lean ====
section
/-! DEFINITION. One arm per command. -/

namespace Sys2Proof.Machine

def exec (i : Instr) (s : State) : Host.Outcome State Fault Refusal :=
  match i with
  | .aUnknown0 id => Sys2Proof.Machine.execAUnknown0 id s
  | .aLocked id => Sys2Proof.Machine.execALocked id s
  | .aUnlocked id => Sys2Proof.Machine.execAUnlocked id s
  | .aOpen3 id => Sys2Proof.Machine.execAOpen3 id s
  | .aHome id => Sys2Proof.Machine.execAHome id s
  | .aMotion id => Sys2Proof.Machine.execAMotion id s
  | .aOpen6 id => Sys2Proof.Machine.execAOpen6 id s
  | .aUnknown7 id => Sys2Proof.Machine.execAUnknown7 id s
  | .aSos id => Sys2Proof.Machine.execASos id s
  | .aClose id => Sys2Proof.Machine.execAClose id s
  | .aUnknownA id => Sys2Proof.Machine.execAUnknownA id s
  | .aUnknownB id => Sys2Proof.Machine.execAUnknownB id s
  | .aUnknownC id => Sys2Proof.Machine.execAUnknownC id s
  | .aUnknownD id => Sys2Proof.Machine.execAUnknownD id s
  | .aUnknownE id => Sys2Proof.Machine.execAUnknownE id s
  | .aUnknownF id => Sys2Proof.Machine.execAUnknownF id s
  | .bUnknown0 id => Sys2Proof.Machine.execBUnknown0 id s
  | .bUnknown1 id => Sys2Proof.Machine.execBUnknown1 id s
  | .bUnknown2 id => Sys2Proof.Machine.execBUnknown2 id s
  | .bUnknown3 id => Sys2Proof.Machine.execBUnknown3 id s
  | .bUnknown4 id => Sys2Proof.Machine.execBUnknown4 id s
  | .bUnknown5 id => Sys2Proof.Machine.execBUnknown5 id s
  | .bClose id => Sys2Proof.Machine.execBClose id s
  | .bSos id => Sys2Proof.Machine.execBSos id s
  | .bUnknown8 id => Sys2Proof.Machine.execBUnknown8 id s
  | .bOpen9 id => Sys2Proof.Machine.execBOpen9 id s
  | .bMotion id => Sys2Proof.Machine.execBMotion id s
  | .bHome id => Sys2Proof.Machine.execBHome id s
  | .bOpenC id => Sys2Proof.Machine.execBOpenC id s
  | .bUnlocked id => Sys2Proof.Machine.execBUnlocked id s
  | .bLocked id => Sys2Proof.Machine.execBLocked id s
  | .bUnknownF id => Sys2Proof.Machine.execBUnknownF id s

end Sys2Proof.Machine
end

