-- ==== Sys2Proof/Machine/Sequencer.lean ====
section
/-! DEFINITION. What the machine does next (spec/45_invocation.md R197, R198): the stage sequencer reads the state and
names one operation. -/

namespace Sys2Proof.Machine

/-- The operations of the machine, one a step (log 5). -/
inductive Operation where
  /-- Reset arrives (R245). -/
  | reset
  /-- The second half of RETURN (R199). -/
  | finishReturn
  /-- IDLE with nothing offered (R26). -/
  | wait
  /-- START (R195). -/
  | start (c : Capture) (rest : List Capture)
  /-- LOCATE (R110). -/
  | locate
  /-- LOAD (R125). -/
  | load (r : Nat)
  /-- SANITY (R126). -/
  | sanity (p : PayloadRegs)
  /-- INVERT (R127). -/
  | invert (p : PayloadRegs)
  /-- EXTRACT (R129, R130). -/
  | extract (p : PayloadRegs)
  /-- The command in `cmd` (R141 to R149, R161 to R169). -/
  | command (i : Instr)
  /-- The guard and `pc <- EMIT` (R150, R170). -/
  | guardLabel (k : ClassifiedRegs)
  /-- EMIT: assemble and hand over (R181, R186). -/
  | emitEvent (k : ClassifiedRegs)
  /-- `ev_valid` is lowered and EventProduced returned (R186, R199). -/
  | endEmit
  deriving DecidableEq, Repr

/-- The operation of a stage, no reset or result handshake being due. Revision A performs SANITY and INVERT, Revision B
performs neither (R128, R133). -/
def stageOperation (s : State) : Operation :=
  match s.stage with
  | .idle => match s.offers with
    | [] => .wait
    | c :: rest => .start c rest
  | .locate => .locate
  | .decode r => .load r
  | .loaded p => match s.rev with
    | .A => .sanity p
    | .B => .extract p
  | .sane p => match s.rev with
    | .A => .invert p
    | .B => .extract p
  | .inverted p => .extract p
  | .classify c => .command (Instr.ofCommand s.rev c.id c.cmd)
  | .classified k => .guardLabel k
  | .emit k => match s.ev with
    | none => .emitEvent k
    | some _ => .endEmit

/-- The next operation: a reset first (R245), then the end of a result handshake (R199), then the stage's own. -/
def nextOperation (s : State) : Operation :=
  match s.rst with
  | true => .reset
  | false => match s.result with
    | some _ => .finishReturn
    | none => stageOperation s

/-- The working registers as they stand when the Frame in row `r` with raw bytes `b0`, `b1`, `b2` reaches CLASSIFY
(R125 to R130). -/
def commandRegsOf (rev : Rev) (r : Nat) (b0 b1 b2 : Byte) : CommandRegs where
  payload := ⟨r, polarity rev b0, polarity rev b1, polarity rev b2⟩
  id := extractId (polarity rev b0) (polarity rev b1) (polarity rev b2)
  cmd := extractCmd (polarity rev b2)

/-- Where the Frame that carries a table word stands after LOCATE and the Payload Decoder: at CLASSIFY, or, where
SANITY refuses it, before SANITY (log 3). -/
def stageOfWord (rev : Rev) (p : BitVec 24) : Stage :=
  let raw := rawOf rev p
  let b0 := raw.extractLsb' 16 8
  let b1 := raw.extractLsb' 8 8
  let b2 := raw.extractLsb' 0 8
  if rev = .A ∧ allZero b0 b1 b2 then .loaded ⟨0, b0, b1, b2⟩
  else .classify (commandRegsOf rev 0 b0 b1 b2)

end Sys2Proof.Machine
end

