-- ==== Sys2Proof/Machine/Step.lean ====
section
/-! DEFINITION. One step: the operation the sequencer names. -/

namespace Sys2Proof.Machine

/-- One step of the machine. -/
def step (s : State) : Host.Outcome State Fault Refusal :=
  match nextOperation s with
  | .reset => .next (applyReset s)
  | .finishReturn => .next (finishReturn s)
  | .wait => .next s
  | .start c rest => startOn c rest s
  | .locate => .next (locate s)
  | .load r => load r s
  | .sanity p => .next (sanity p s)
  | .invert p => .next (invert p s)
  | .extract p => .next (extract p s)
  | .command i => exec i s
  | .guardLabel k => .next (guardLabel k s)
  | .emitEvent k => emitEvent k s
  | .endEmit => .next (endEmit s)

/-- The machine with the command of a table word about to run: its Frame, laid out for the machine's own revision,
stands twice in the Capture, no reset or handshake is due, and LOCATE and the Payload Decoder have acted on it, so that
the next step runs the command (logs 2 and 3). -/
def State.withFetchWord (s : State) (nbits w : Nat) : State :=
  { s with
    cap := [frameOf s.rev (tablePayload nbits w) false, frameOf s.rev (tablePayload nbits w) false]
    stage := stageOfWord s.rev (tablePayload nbits w)
    ev := none
    result := none
    rst := false }

end Sys2Proof.Machine
end

