-- ==== Sys2Proof/Machine/Instances.lean ====
section
/-! DEFINITION. Several instances side by side (spec/60_exceptions.md R236, spec/20_memory.md R63,
spec/45_invocation.md R202). -/

namespace Sys2Proof.Machine

/-- Any number of instances, of either revision, and the events their common sink has taken, each with the position of
the instance it came from. The instances share nothing writable (R21, R236); each reads the Capture it was offered. -/
structure Instances where
  members : List State
  events : List (Nat × EventRecord)
  deriving DecidableEq, Repr

/-- One step of the instance at position `k`; a position that holds no instance leaves all as it is. Which instance moves
is the schedule's choice, so the events of concurrent invocations may reach the sink in any order (R236, U15); log 27. -/
def Instances.stepAt (k : Nat) (sys : Instances) : Host.Outcome Instances Fault Refusal :=
  match sys.members[k]? with
  | none => .next sys
  | some s =>
    match step s with
    | .next t =>
      .next { members := sys.members.set k t,
              events := sys.events ++ (t.sink.drop s.sink.length).map (fun e => (k, e)) }
    | .fault f => .fault f
    | .refused r => .refused r

/-- The instances moved in the order of a schedule. -/
def Instances.runSchedule : List Nat → Instances → Host.Outcome Instances Fault Refusal
  | [], sys => .next sys
  | k :: rest, sys =>
    match Instances.stepAt k sys with
    | .next sys' => Instances.runSchedule rest sys'
    | .fault f => .fault f
    | .refused r => .refused r

/-- What the sink has taken from the instance at position `k`, in order. -/
def Instances.eventsOf (k : Nat) (sys : Instances) : List EventRecord :=
  (sys.events.filter (fun e => e.1 == k)).map Prod.snd

end Sys2Proof.Machine
end

