-- ==== Sys2Proof/Machine/Invocation.lean ====
section
/-! DEFINITION. The whole block as one function (spec/45_invocation.md R196), written on the Command Table ROMs, and the
Payload Decoder as a function of the raw payload (spec/41_payload_decoder.md R133). -/

namespace Sys2Proof.Machine

/-- `DecodePayload` (R133), on the 24-bit raw payload: `none` is the sanity failure. -/
def decodePayload (rev : Rev) (raw : BitVec 24) : Option (BitVec 20 × BitVec 4) :=
  match rev with
  | .A =>
    if raw = 0 then none
    else some ((raw ^^^ 0xFFFFFF#24).extractLsb' 4 20, (raw ^^^ 0xFFFFFF#24).extractLsb' 0 4)
  | .B => some (raw.extractLsb' 4 20, raw.extractLsb' 0 4)

/-- The record of identifier `id` and command `cmd` under a revision's Command Table (R140, R160, R181). -/
def tableRecord (rev : Rev) (id : BitVec 20) (cmd : BitVec 4) : EventRecord :=
  eventRecord rev id cmd (entryLabel (tableEntry rev cmd)) (entryFsel (tableEntry rev cmd))
    (entryFval (tableEntry rev cmd))

/-- The part of `Decode` after LOAD (R196), on the three raw bytes. -/
def decodeLoaded (rev : Rev) (b0 b1 b2 : Byte) : Ending × Option EventRecord :=
  if rev = .A ∧ allZero b0 b1 b2 then (.sanityFailure, none)
  else
    (.eventProduced, some (tableRecord rev (extractId (polarity rev b0) (polarity rev b1) (polarity rev b2))
      (extractCmd (polarity rev b2))))

/-- `Decode(REV, Cap)` (R196): the outcome reported to the dispatcher and the record handed to the sink. The guard's line
is not written again here: a table entry always has a label (R29, R150). The last line is for the three reads of a row
that LOCATE did not return, and is never taken (R58). -/
def decodeCapture (rev : Rev) (cap : Capture) : Ending × Option EventRecord :=
  match locateFrame cap with
  | none => (locateCause cap, none)
  | some r =>
    match memRead cap r 0 8, memRead cap r 8 8, memRead cap r 16 8 with
    | some b0, some b1, some b2 => decodeLoaded rev b0 b1 b2
    | _, _, _ => (locateCause cap, none)

end Sys2Proof.Machine
end

