-- ==== Sys2Proof/Safety.lean ====
section
/-! DEFINITION. The terms claims are stated in: what a coherent state is, what it is to be at rest, what an invocation
leaves, and what the rule of one command says. -/

namespace Sys2Proof.Machine

/-- At rest: IDLE with no handshake, no event and no pulse on the ports, and no reset arriving (R39). -/
def Quiet (s : State) : Prop :=
  s.stage = .idle ∧ s.ev = none ∧ s.result = none ∧ s.diagSanity = false ∧ s.rst = false

/-- Neither a reset nor the end of a handshake is due, so the stage acts next (R245, R199). -/
def StageActs (s : State) : Prop := s.rst = false ∧ s.result = none

/-- `n` steps of the machine, stopping at the first fault or refusal. -/
def runSteps (n : Nat) (s : State) : Host.Outcome State Fault Refusal := Host.Core.run core n s

/-- The Capture holds a row of exactly 25 bits that repeats in the next consecutive row, at index `r` (R110, R111). -/
def FrameAt (cap : Capture) (r : Nat) : Prop :=
  ∃ row, cap[r]? = some row ∧ cap[r + 1]? = some row ∧ row.length = 25

/-- Some two consecutive rows of the Capture are equal (R111, R215). -/
def SomeRowRepeats (cap : Capture) : Prop := ∃ r row, cap[r]? = some row ∧ cap[r + 1]? = some row

/-- `p` holds the row LOCATE found and its three raw bytes, as LOAD leaves them (R112, R125). -/
def RawAt (cap : Capture) (p : PayloadRegs) : Prop :=
  locateFrame cap = some p.r ∧ memRead cap p.r 0 8 = some p.b0 ∧ memRead cap p.r 8 8 = some p.b1 ∧
    memRead cap p.r 16 8 = some p.b2

/-- `c` is what an instance of revision `rev` holds at CLASSIFY for this Capture (R125 to R130). -/
def CommandAt (rev : Rev) (cap : Capture) (c : CommandRegs) : Prop :=
  ∃ p, RawAt cap p ∧ (rev = .A → allZero p.b0 p.b1 p.b2 = false) ∧ c = commandRegsOf rev p.r p.b0 p.b1 p.b2

/-- `k` is what the instance holds once the command has run: the Command Table's entry at `cmd` (R140, R160). -/
def ClassifiedAt (rev : Rev) (cap : Capture) (k : ClassifiedRegs) : Prop :=
  CommandAt rev cap k.command ∧ k.label = some (entryLabel (tableEntry rev k.command.cmd)) ∧
    k.fsel = entryFsel (tableEntry rev k.command.cmd) ∧ k.fval = entryFval (tableEntry rev k.command.cmd)

/-- The working registers hold what the operations before this point put there (R24, R25, R197). -/
def StageFits (rev : Rev) (cap : Capture) : Stage → Prop
  | .idle => True
  | .locate => True
  | .decode r => locateFrame cap = some r
  | .loaded p => RawAt cap p
  | .sane p => rev = .A ∧ RawAt cap p ∧ allZero p.b0 p.b1 p.b2 = false
  | .inverted p => rev = .A ∧ ∃ q, RawAt cap q ∧ allZero q.b0 q.b1 q.b2 = false ∧
      p = ⟨q.r, invertByte q.b0, invertByte q.b1, invertByte q.b2⟩
  | .classify c => CommandAt rev cap c
  | .classified k => ClassifiedAt rev cap k
  | .emit k => ClassifiedAt rev cap k

/-- While `ev_valid` = 1 the machine is in EMIT with no result due, the port carries the record of the registers, and the
sink has just taken it (R181, R184, R186). -/
def EventFits (s : State) : Prop :=
  ∀ e, s.ev = some e → s.result = none ∧ ∃ k l, s.stage = .emit k ∧ k.label = some l ∧
    e = eventPort s.rev k.command.id k.command.cmd l k.fsel k.fval ∧
    s.sink.getLast? = some (recordOfPort e)

/-- While `done` = 1 the result outputs are those of `Decode` on the Capture, the dispatcher has just received them, and
a success is reported only after the sink has taken the record (R64, R196, R199). -/
def ResultFits (s : State) : Prop :=
  ∀ p, s.result = some p → p = (decodeCapture s.rev s.cap).1.port ∧ s.results.getLast? = some p ∧
    (p.outcome = .eventProduced → s.sink.getLast? = (decodeCapture s.rev s.cap).2)

/-- The invariant of the machine: the Capture is one (R51), the registers, the event port and the result outputs fit it,
and `diag_sanity` is up only with a reported sanity failure under `VERBOSE` (R35; that it stands as long as the result is log 20). -/
def Coherent (s : State) : Prop :=
  Capture.wf s.cap = true ∧ StageFits s.rev s.cap s.stage ∧ EventFits s ∧ ResultFits s ∧
    (s.diagSanity = true → Config.verbose = true ∧ s.result = some Ending.sanityFailure.port)

/-- What one invocation on `c` leaves of a machine at rest: the result of `Decode` with the dispatcher, the record, if
any, with the sink, the Capture as it was offered, and nothing else (R20, R196). -/
def served (s : State) (c : Capture) (rest : List Capture) : State :=
  { s with
    cap := c
    offers := rest
    results := s.results ++ [(decodeCapture s.rev c).1.port]
    sink := s.sink ++ (decodeCapture s.rev c).2.toList }

/-- The rule of one command, as R141 to R149 and R161 to R169 each give it: the write it makes in CLASSIFY, the numbers it
writes (R30), the record of every invocation that reaches it, and the rule's example `<command> 0x12345` on raw bytes
`x0 x1 x2`. -/
def CommandRule (rev : Rev) (code : BitVec 4) (make : BitVec 20 → Instr) (label : StateLabel) (labelCode : BitVec 3)
    (fsel : FieldSel) (fselCode : BitVec 3) (fval : BitVec 2) (field : EventRecord) (name : String)
    (x0 x1 x2 : Byte) : Prop :=
  (∀ (s : State) (c : CommandRegs), s.rev = rev → s.stage = .classify c → c.cmd = code →
    exec (make c.id) s = .next { s with stage := .classified ⟨c, some label, fsel, fval⟩ }) ∧
  (label.number = labelCode ∧ fsel.number = fselCode) ∧
  (∀ (cap : Capture) (c : CommandRegs), CommandAt rev cap c → c.cmd = code →
    decodeCapture rev cap = (.eventProduced, some ([(.model, .text (modelLabel rev)), (.id, .hexInteger c.id.toNat),
      (.cmd, .hexInteger code.toNat)] ++ field ++ [(.state, .text name)]))) ∧
  decodeBytes rev x0 x1 x2 = .ok (make 0x12345#20)

/-- The pairs of `pc` values one step can go between, a step inside a stage included (R26, R198; log 5). -/
def pcTransfers : List (Pc × Pc) :=
  [(.idle, .idle), (.idle, .locate),
   (.locate, .locate), (.locate, .decode), (.locate, .idle),
   (.decode, .decode), (.decode, .classify), (.decode, .idle),
   (.classify, .classify), (.classify, .emit), (.classify, .idle),
   (.emit, .emit), (.emit, .idle)]

/-- All keys a record of a revision can hold, in order (R187). -/
def schema : Rev → List Key
  | .A => [.model, .id, .cmd, .motion, .opened, .button, .state]
  | .B => [.model, .id, .cmd, .motion, .opened, .lock, .unlock, .home, .sos, .state]

end Sys2Proof.Machine
end

