-- ==== Sys2Proof/Certificates/Slice0/Obligations.lean ====
section
/-! DEFINITION. The statements for the provers, from the numbered rules of spec/. -/

open Sys2Proof Sys2Proof.Machine

/-- In CLASSIFY, with no reset and no handshake due, the step is `exec` of the command that `REV`, `id` and `cmd` name (R95, R197, R198). The step adds nothing around `exec`. One operation a step is the model's choice: log 5. -/
def Obligations.StepRunsTheCommandAtHand : Prop :=
    ∀ (s : State) (c : CommandRegs), StageActs s → s.stage = .classify c →
    step s = exec (Instr.ofCommand s.rev c.id c.cmd) s

/-- Fetching: at DECODE with `r` the index of a row that the decoder reads as the well-formed command `i`, at most four steps (LOAD, SANITY and INVERT in Revision A, EXTRACT; R125 to R133) bring the machine to CLASSIFY, changing nothing but the working registers, and the step after them is `exec i`. One operation a step is the model's choice: log 5; the bit order is decision D4: log 12. -/
def Obligations.LocatedFrameRunsItsCommand : Prop :=
    ∀ (s : State) (r : Nat) (row : Row) (i : Instr), StageActs s → s.stage = .decode r → s.cap[r]? = some row →
    decodeRow s.rev row = .ok i →
    ∃ n c, n ≤ 4 ∧ runSteps n s = .next { s with stage := .classify c } ∧ i.wellFormed = true ∧
      step { s with stage := .classify c } = exec i { s with stage := .classify c }

/-- Each rule in full (`CommandRule`): in CLASSIFY with `REV`, `cmd` as the rule says and any `id`, `exec` answers the next state in which `label`, `fsel` and `fval` hold the rule's values and all else is as before; every Capture that brings the command to CLASSIFY produces an event with the rule's record; and the rule's example raw bytes carry the command. R141 to R144. -/
def Obligations.RevisionASensorCommandsComplete : Prop :=
    CommandRule .A 0x5 .aMotion .motion 1 .motion 1 1 [(.motion, .integer 1)] "motion" 0xed 0xcb 0xaa ∧
    CommandRule .A 0x6 .aOpen6 .opened 2 .opened 2 1 [(.opened, .integer 1)] "open" 0xed 0xcb 0xa9 ∧
    CommandRule .A 0x3 .aOpen3 .opened 2 .opened 2 1 [(.opened, .integer 1)] "open" 0xed 0xcb 0xac ∧
    CommandRule .A 0x9 .aClose .closed 3 .opened 2 0 [(.opened, .integer 0)] "close" 0xed 0xcb 0xa6

/-- Each rule in full (`CommandRule`): in CLASSIFY with `REV`, `cmd` as the rule says and any `id`, `exec` answers the next state in which `label`, `fsel` and `fval` hold the rule's values and all else is as before; every Capture that brings the command to CLASSIFY produces an event with the rule's record; and the rule's example raw bytes carry the command. R145 to R148. -/
def Obligations.RevisionAButtonCommandsComplete : Prop :=
    CommandRule .A 0x1 .aLocked .locked 4 .button 3 0 [(.button, .text "lock")] "locked" 0xed 0xcb 0xae ∧
    CommandRule .A 0x2 .aUnlocked .unlocked 5 .button 3 1 [(.button, .text "unlock")] "unlocked" 0xed 0xcb 0xad ∧
    CommandRule .A 0x4 .aHome .home 6 .button 3 2 [(.button, .text "home")] "home" 0xed 0xcb 0xab ∧
    CommandRule .A 0x8 .aSos .sos 7 .button 3 3 [(.button, .text "sos")] "sos" 0xed 0xcb 0xa7

/-- Each rule in full (`CommandRule`): in CLASSIFY with `REV`, `cmd` as the rule says and any `id`, `exec` answers the next state in which `label`, `fsel` and `fval` hold the rule's values and all else is as before; every Capture that brings the command to CLASSIFY produces an event with the rule's record; and the rule's example raw bytes carry the command. R149, all eight codes; the one (`id`, `cmd`) that cannot reach the rule, and that every other can, is the last clause. -/
def Obligations.RevisionAUnknownCommandsComplete : Prop :=
    CommandRule .A 0x0 .aUnknown0 .unknown 0 .absent 0 0 [] "unknown" 0xed 0xcb 0xaf ∧
    CommandRule .A 0x7 .aUnknown7 .unknown 0 .absent 0 0 [] "unknown" 0xed 0xcb 0xa8 ∧
    CommandRule .A 0xa .aUnknownA .unknown 0 .absent 0 0 [] "unknown" 0xed 0xcb 0xa5 ∧
    CommandRule .A 0xb .aUnknownB .unknown 0 .absent 0 0 [] "unknown" 0xed 0xcb 0xa4 ∧
    CommandRule .A 0xc .aUnknownC .unknown 0 .absent 0 0 [] "unknown" 0xed 0xcb 0xa3 ∧
    CommandRule .A 0xd .aUnknownD .unknown 0 .absent 0 0 [] "unknown" 0xed 0xcb 0xa2 ∧
    CommandRule .A 0xe .aUnknownE .unknown 0 .absent 0 0 [] "unknown" 0xed 0xcb 0xa1 ∧
    CommandRule .A 0xf .aUnknownF .unknown 0 .absent 0 0 [] "unknown" 0xed 0xcb 0xa0 ∧
    (∀ (cap : Capture) (c : CommandRegs), CommandAt .A cap c → ¬ (c.id = 0xfffff ∧ c.cmd = 0xf)) ∧
    (∀ (id : BitVec 20) (cmd : BitVec 4), ¬ (id = 0xfffff ∧ cmd = 0xf) →
      ∃ cap c, Capture.wf cap = true ∧ CommandAt .A cap c ∧ c.id = id ∧ c.cmd = cmd)

/-- Each rule in full (`CommandRule`): in CLASSIFY with `REV`, `cmd` as the rule says and any `id`, `exec` answers the next state in which `label`, `fsel` and `fval` hold the rule's values and all else is as before; every Capture that brings the command to CLASSIFY produces an event with the rule's record; and the rule's example raw bytes carry the command. R161 to R164. -/
def Obligations.RevisionBSensorCommandsComplete : Prop :=
    CommandRule .B 0xa .bMotion .motion 1 .motion 1 1 [(.motion, .integer 1)] "motion" 0x12 0x34 0x5a ∧
    CommandRule .B 0x9 .bOpen9 .opened 2 .opened 2 1 [(.opened, .integer 1)] "open" 0x12 0x34 0x59 ∧
    CommandRule .B 0xc .bOpenC .opened 2 .opened 2 1 [(.opened, .integer 1)] "open" 0x12 0x34 0x5c ∧
    CommandRule .B 0x6 .bClose .closed 3 .opened 2 0 [(.opened, .integer 0)] "close" 0x12 0x34 0x56

/-- Each rule in full (`CommandRule`): in CLASSIFY with `REV`, `cmd` as the rule says and any `id`, `exec` answers the next state in which `label`, `fsel` and `fval` hold the rule's values and all else is as before; every Capture that brings the command to CLASSIFY produces an event with the rule's record; and the rule's example raw bytes carry the command. R165 to R168. -/
def Obligations.RevisionBButtonCommandsComplete : Prop :=
    CommandRule .B 0xe .bLocked .locked 4 .lock 4 1 [(.lock, .integer 1)] "locked" 0x12 0x34 0x5e ∧
    CommandRule .B 0xd .bUnlocked .unlocked 5 .unlock 5 1 [(.unlock, .integer 1)] "unlocked" 0x12 0x34 0x5d ∧
    CommandRule .B 0xb .bHome .home 6 .home 6 1 [(.home, .integer 1)] "home" 0x12 0x34 0x5b ∧
    CommandRule .B 0x7 .bSos .sos 7 .sos 7 1 [(.sos, .integer 1)] "sos" 0x12 0x34 0x57

/-- Each rule in full (`CommandRule`): in CLASSIFY with `REV`, `cmd` as the rule says and any `id`, `exec` answers the next state in which `label`, `fsel` and `fval` hold the rule's values and all else is as before; every Capture that brings the command to CLASSIFY produces an event with the rule's record; and the rule's example raw bytes carry the command. R169, all eight codes; the last clause is its corner case: raw bytes 00 00 00 reach the rule. -/
def Obligations.RevisionBUnknownCommandsComplete : Prop :=
    CommandRule .B 0x0 .bUnknown0 .unknown 0 .absent 0 0 [] "unknown" 0x12 0x34 0x50 ∧
    CommandRule .B 0x1 .bUnknown1 .unknown 0 .absent 0 0 [] "unknown" 0x12 0x34 0x51 ∧
    CommandRule .B 0x2 .bUnknown2 .unknown 0 .absent 0 0 [] "unknown" 0x12 0x34 0x52 ∧
    CommandRule .B 0x3 .bUnknown3 .unknown 0 .absent 0 0 [] "unknown" 0x12 0x34 0x53 ∧
    CommandRule .B 0x4 .bUnknown4 .unknown 0 .absent 0 0 [] "unknown" 0x12 0x34 0x54 ∧
    CommandRule .B 0x5 .bUnknown5 .unknown 0 .absent 0 0 [] "unknown" 0x12 0x34 0x55 ∧
    CommandRule .B 0x8 .bUnknown8 .unknown 0 .absent 0 0 [] "unknown" 0x12 0x34 0x58 ∧
    CommandRule .B 0xf .bUnknownF .unknown 0 .absent 0 0 [] "unknown" 0x12 0x34 0x5f ∧
    decodeBytes .B 0 0 0 = .ok (.bUnknown0 0)

/-- The frame of every command: where `exec` answers a next state, `pc` stays at CLASSIFY, the registers `r`, `b0`, `b1`, `b2`, `id`, `cmd` keep their values, `label`, `fsel`, `fval` hold one now, and `REV`, the ports, `diag_sanity`, the reset line, the dispatcher's and the sink's lists and every bit of the Capture are as before (headers of files 42 and 43; R53: no form stores). -/
def Obligations.CommandsWriteOnlyTheirRegisters : Prop :=
    ∀ (i : Instr) (s t : State), exec i s = .next t →
    t.pc = s.pc ∧ t.stage.r? = s.stage.r? ∧ t.stage.payload? = s.stage.payload? ∧
    t.stage.command? = s.stage.command? ∧ t.stage.classified?.isSome = true ∧
    t.rev = s.rev ∧ t.ev = s.ev ∧ t.result = s.result ∧ t.diagSanity = s.diagSanity ∧ t.rst = s.rst ∧
    t.offers = s.offers ∧ t.sink = s.sink ∧ t.results = s.results ∧
    nrows t.cap = nrows s.cap ∧ ∀ r i, bitAt t.cap r i = bitAt s.cap r i ∧ rowLen t.cap r = rowLen s.cap r

/-- The model's choice, log 21: `exec` of a command that is not the one `REV`, `id` and `cmd` name in CLASSIFY is refused by name; and no command faults anywhere. -/
def Obligations.CommandNotAtHandIsRefused : Prop :=
    (∀ (i : Instr) (s : State), (∀ c, s.stage = .classify c → Instr.ofCommand s.rev c.id c.cmd ≠ i) →
      exec i s = .refused .commandNotPending) ∧
    ∀ (i : Instr) (s : State) (f : Fault), exec i s ≠ .fault f

/-- The 32 command rules and the two ROMs agree (R140, R151, R160, R170): in CLASSIFY the command at hand writes the fields of the entry at `cmd`. The 8-bit layout of an entry is decision D10: log 16. -/
def Obligations.CommandWritesItsTableEntry : Prop :=
    ∀ (s : State) (c : CommandRegs), s.stage = .classify c →
    exec (Instr.ofCommand s.rev c.id c.cmd) s = .next { s with stage := .classified ⟨c,
      some (entryLabel (tableEntry s.rev c.cmd)), entryFsel (tableEntry s.rev c.cmd),
      entryFval (tableEntry s.rev c.cmd)⟩ }

/-- The round trip of R99: the Frame of every well-formed command, with any `id` and either sync bit, is 25 bits long and decodes to that command; the one exception of R99 is refused as an all-zero payload. The bit order is decision D4: log 12. -/
def Obligations.EncodedCommandDecodesBack : Prop :=
    (∀ (i : Instr) (sync : Bool), i.wellFormed = true →
      (encode i sync).length = 25 ∧ decodeRow i.rev (encode i sync) = .ok i) ∧
    ∀ sync : Bool, decodeRow .A (encode (.aUnknownF 0xfffff) sync) = .error .allZeroPayload

/-- The other direction: a row the decoder accepts is the Frame of the command it names, of the same revision, well-formed, with the row's last bit as sync bit; so no payload bit of a row is dropped (R81 to R85, R95, R99). The bit order is decision D4: log 12. -/
def Obligations.DecodedRowIsTheEncoding : Prop :=
    ∀ (rev : Rev) (row : Row) (i : Instr), decodeRow rev row = .ok i →
    i.rev = rev ∧ i.wellFormed = true ∧ ∃ sync, row = encode i sync

/-- R97: a row that is not 25 bits is no Frame; in Revision A a Frame whose 24 payload bits are all zero is refused, whatever the sync bit; every other row carries a command, in Revision B the all-zero payload too. -/
def Obligations.DecoderRefusesByName : Prop :=
    ∀ (rev : Rev) (row : Row),
    (decodeRow rev row = .error .notAFrame ↔ row.length ≠ 25) ∧
    (decodeRow rev row = .error .allZeroPayload ↔
      row.length = 25 ∧ rev = .A ∧ ∀ k < 24, row[k]? = some false)

/-- Four rows written out bit by bit from ROW25 and the vectors of 95_test_vectors.md: A.MOTION 0x12345 ({25}edcbaa0), A.UNKNOWN(0xf) 0xa5f07 ({25}5a0f800), B.MOTION 0x12345 ({25}12345a8, sync bit 1), B.LOCKED 0xa5f07 ({25}a5f07e0). -/
def Obligations.WrittenOutRowsDecode : Prop :=
    decodeRow .A [true, true, true, false, true, true, false, true, true, true, false, false, true, false, true, true, true, false, true, false, true, false, true, false, false] =
      .ok (.aMotion 0x12345) ∧
    decodeRow .A [false, true, false, true, true, false, true, false, false, false, false, false, true, true, true, true, true, false, false, false, false, false, false, false, false] =
      .ok (.aUnknownF 0xa5f07) ∧
    decodeRow .B [false, false, false, true, false, false, true, false, false, false, true, true, false, true, false, false, false, true, false, true, true, false, true, false, true] =
      .ok (.bMotion 0x12345) ∧
    decodeRow .B [true, false, true, false, false, true, false, true, true, true, true, true, false, false, false, false, false, true, true, true, true, true, true, false, false] =
      .ok (.bLocked 0xa5f07)

/-- MemRead on its domain is the sum of the row's bits times powers of two, the first bit most significant; outside its domain it has no value. The bit order is decision D4 of the spec (log 12). -/
def Obligations.MemReadPacksFirstBitMostSignificant : Prop :=
    ∀ (cap : Capture) (r i n : Nat) (row : Row), cap[r]? = some row →
    (i + n ≤ row.length → ∃ v : BitVec n, memRead cap r i n = some v ∧
      v.toNat = ((List.range n).map (fun k => (row.getD (i + k) false).toNat * 2 ^ (n - 1 - k))).sum) ∧
    (row.length < i + n → memRead cap r i n = none) ∧
    ∀ q, nrows cap ≤ q → memRead cap q i n = none

/-- RowEq of two existing rows: equal length and every bit equal, the sync bit included, no prefix match. Exactness is decision D6 of the spec (log 13). -/
def Obligations.RowEqIsEqualityOfEveryBit : Prop :=
    ∀ (cap : Capture) (r q : Nat) (x y : Row), cap[r]? = some x → cap[q]? = some y →
    (rowEq cap r q = true ↔ x.length = y.length ∧ ∀ i < x.length, bitAt cap r i = bitAt cap q i)

/-- LOCATE succeeds on the least index of a 25-bit row that repeats in the next row: `r` holds it, `pc` is DECODE, nothing else changes. Exact repetition and the least index are decisions D6 and D7 of the spec (logs 13 and 14). -/
def Obligations.LocateTakesTheLeastFrame : Prop :=
    ∀ (s : State) (r : Nat), StageActs s → s.stage = .locate → FrameAt s.cap r → (∀ q < r, ¬ FrameAt s.cap q) →
    step s = .next { s with stage := .decode r }

/-- R113: if no index qualifies, the invocation ends with code ABORT_LENGTH and no event; no working register is written, no later component acts, and the step after the handshake leaves IDLE. -/
def Obligations.LocateAbortsWithoutAFrame : Prop :=
    ∀ s : State, StageActs s → s.stage = .locate → (∀ r, ¬ FrameAt s.cap r) →
    ∃ cause t u, step s = .next t ∧ t = { raiseAbort cause s with stage := .locate } ∧
      t.result = some ⟨cause, .abortLength, 0⟩ ∧ t.ev = s.ev ∧ t.sink = s.sink ∧ t.stage.r? = none ∧
      step t = .next u ∧ u.stage = .idle ∧ u.sink = s.sink ∧ u.results = s.results ++ [⟨cause, .abortLength, 0⟩]

/-- The cause of the locator's abort, decision D18 of the spec (log 15): LengthMismatch if some two consecutive rows are equal, NoRepeatedFrame otherwise. -/
def Obligations.LocateCauseSplitsTheFailures : Prop :=
    ∀ s : State, StageActs s → s.stage = .locate → (∀ r, ¬ FrameAt s.cap r) →
    (SomeRowRepeats s.cap → step s = .next (raiseAbort .lengthMismatch s)) ∧
    (¬ SomeRowRepeats s.cap → step s = .next (raiseAbort .noRepeatedFrame s))

/-- The test property of 40_frame_locator.md section 3 and its converse, for both revisions: code ABORT_LENGTH exactly where no row is repeated at 25 bits, and then no event. Rests on decision D6 (log 13). -/
def Obligations.NonMatchExactlyWithoutAFrame : Prop :=
    ∀ (rev : Rev) (cap : Capture),
    ((decodeCapture rev cap).1.code = .abortLength ↔ ∀ r, ¬ FrameAt cap r) ∧
    ((∀ r, ¬ FrameAt cap r) → (decodeCapture rev cap).2 = none ∧ (decodeCapture rev cap).1.events = 0)

/-- LOAD: row bits 0 to 7, 8 to 15 and 16 to 23 become `b0`, `b1`, `b2`, the first bit of each the most significant (decision D4 of the spec, log 12); bit 24 goes nowhere; the Capture and all else stay. A missing position faults by name (log 23). -/
def Obligations.LoadReadsTheThreeBytes : Prop :=
    ∀ (s : State) (r : Nat), StageActs s → s.stage = .decode r →
    (∀ row, s.cap[r]? = some row → 24 ≤ row.length → ∃ b0 b1 b2 : Byte,
      step s = .next { s with stage := .loaded ⟨r, b0, b1, b2⟩ } ∧
      ∀ k < 8, row[k]? = some (b0.getMsbD k) ∧ row[8 + k]? = some (b1.getMsbD k) ∧
        row[16 + k]? = some (b2.getMsbD k)) ∧
    ((∀ row, s.cap[r]? = some row → row.length < 24) → step s = .fault .noSuchPosition)

/-- R126: SANITY, Revision A only, on the raw bytes before inversion: three zero bytes end the invocation with SanityFailure (code FAIL_SANITY, no event, `diag_sanity` up exactly if `VERBOSE`); any other bytes pass, ff ff ff and a single one bit among them. That `diag_sanity` is up in the very state in which `done` rises is the model's choice of instant (log 20). -/
def Obligations.SanityRefusesZeroRawBytes : Prop :=
    ∀ (s : State) (p : PayloadRegs), StageActs s → s.rev = .A → s.stage = .loaded p →
    (p.b0 = 0 ∧ p.b1 = 0 ∧ p.b2 = 0 →
      step s = .next { s with
        result := some ⟨.sanityFailure, .failSanity, 0⟩
        results := s.results ++ [⟨.sanityFailure, .failSanity, 0⟩]
        diagSanity := Config.verbose }) ∧
    (¬ (p.b0 = 0 ∧ p.b1 = 0 ∧ p.b2 = 0) → step s = .next { s with stage := .sane p })

/-- R127: INVERT, Revision A only, after SANITY has passed: each of `b0`, `b1`, `b2` becomes `x ^ 0xFF` at 8 bits; the Capture and all else stay. The worked example: raw ed cb aa becomes 12 34 55. -/
def Obligations.InvertFlipsTheWorkingBytesOnly : Prop :=
    (∀ (s : State) (p : PayloadRegs), StageActs s → s.rev = .A → s.stage = .sane p →
      step s = .next { s with stage := .inverted ⟨p.r, p.b0 ^^^ 0xFF, p.b1 ^^^ 0xFF, p.b2 ^^^ 0xFF⟩ }) ∧
    (invertByte 0xed = 0x12 ∧ invertByte 0xcb = 0x34 ∧ invertByte 0xaa = 0x55)

/-- Revision B performs neither SANITY nor INVERT (R128): after LOAD the step is EXTRACT on the bytes as loaded; no Capture ends with SanityFailure; raw 00 00 00 gives an event with `id` = 0, `cmd` = 0, state `unknown`. -/
def Obligations.RevisionBTakesBytesAsCaptured : Prop :=
    (∀ (s : State) (p : PayloadRegs), StageActs s → s.rev = .B → s.stage = .loaded p →
      step s = .next { s with stage := .classify ⟨p, extractId p.b0 p.b1 p.b2, extractCmd p.b2⟩ }) ∧
    (∀ cap, (decodeCapture .B cap).1 ≠ .sanityFailure) ∧
    decodeLoaded .B 0 0 0 = (.eventProduced, some [(.model, .text "Digoo-Security"), (.id, .hexInteger 0),
      (.cmd, .hexInteger 0), (.state, .text "unknown")])

/-- R129 and R130: EXTRACT, both revisions: `id` is `(zext_20(b0) << 12) | (zext_20(b1) << 4) | zext_20(b2 >> 4)`, which is `b0 ++ b1 ++ b2[7:4]`, and takes every 20-bit value; `cmd` is `b2 & 0x0F`, which is `b2[3:0]`; `pc` is CLASSIFY; nothing else changes. The worked example: 12 34 5a gives 0x12345 and 0xa. -/
def Obligations.ExtractAssemblesIdAndCmd : Prop :=
    (∀ (s : State) (p : PayloadRegs), StageActs s → (s.stage = .inverted p ∨ s.rev = .B ∧ s.stage = .loaded p) →
      step s = .next { s with stage := .classify ⟨p,
        (p.b0.setWidth 20 <<< 12) ||| (p.b1.setWidth 20 <<< 4) ||| (p.b2 >>> 4).setWidth 20,
        (p.b2 &&& 0x0F).setWidth 4⟩ }) ∧
    (∀ b0 b1 b2 : Byte, extractId b0 b1 b2 = b0 ++ b1 ++ b2.extractLsb' 4 4 ∧ extractCmd b2 = b2.extractLsb' 0 4) ∧
    (∀ v : BitVec 20, ∃ b0 b1 b2 : Byte, extractId b0 b1 b2 = v) ∧
    extractId 0x12 0x34 0x5a = 0x12345 ∧ extractCmd 0x5a = 0xa

/-- The laws of 41_payload_decoder.md section 2 (R131): inversion undoes itself, the shifts are exact multiplications and divisions at 20 bits, the OR of the three terms is their sum, the mask is the remainder by 16. -/
def Obligations.FieldArithmeticLosesNoBit : Prop :=
    ∀ b0 b1 b2 : Byte,
    invertByte (invertByte b0) = b0 ∧ (invertByte b0).toNat = 255 - b0.toNat ∧
    (b0.setWidth 20 <<< 12 : BitVec 20).toNat = b0.toNat * 4096 ∧
    (b1.setWidth 20 <<< 4 : BitVec 20).toNat = b1.toNat * 16 ∧
    ((b2 >>> 4).setWidth 20 : BitVec 20).toNat = b2.toNat / 16 ∧
    (extractId b0 b1 b2).toNat = b0.toNat * 4096 + b1.toNat * 16 + b2.toNat / 16 ∧
    (extractCmd b2).toNat = b2.toNat % 16

/-- R133, R83, R86, as steps of the machine: LOAD leaves in `b0 ++ b1 ++ b2` the first 24 bits of the row; from there a Revision A machine aborts with SanityFailure exactly where DecodePayload of `b0 ++ b1 ++ b2` has no value, and otherwise at most three steps bring either revision to CLASSIFY with the `id` and `cmd` of DecodePayload, the bytes under the polarity rule, and nothing else changed. The last clause is the same without steps, for the registers `commandRegsOf` names. One operation a step is the model's choice: log 5; the bit order is decision D4: log 12. -/
def Obligations.PayloadDecoderIsDecodePayload : Prop :=
    (∀ (s : State) (r : Nat) (row : Row), StageActs s → s.stage = .decode r → s.cap[r]? = some row → 24 ≤ row.length →
      ∃ p, step s = .next { s with stage := .loaded p } ∧ p.r = r ∧
        p.b0 ++ p.b1 ++ p.b2 = packBits 24 (row.take 24)) ∧
    (∀ (s : State) (p : PayloadRegs), StageActs s → s.stage = .loaded p →
      (decodePayload s.rev (p.b0 ++ p.b1 ++ p.b2) = none ↔ step s = .next (raiseAbort .sanityFailure s)) ∧
      ∀ id cmd, decodePayload s.rev (p.b0 ++ p.b1 ++ p.b2) = some (id, cmd) →
        ∃ n q, n ≤ 3 ∧ runSteps n s = .next { s with stage := .classify ⟨q, id, cmd⟩ } ∧
          q = ⟨p.r, polarity s.rev p.b0, polarity s.rev p.b1, polarity s.rev p.b2⟩) ∧
    ∀ (rev : Rev) (r : Nat) (b0 b1 b2 : Byte),
      decodePayload rev (b0 ++ b1 ++ b2) =
        if rev = .A ∧ allZero b0 b1 b2 = true then none
        else some ((commandRegsOf rev r b0 b1 b2).id, (commandRegsOf rev r b0 b1 b2).cmd)

/-- R150, R151, R170: after the command Revision A aborts with UnclassifiableCommand if `label` is `none`; with a label, and in Revision B always, `pc` becomes EMIT and nothing else changes. Keeping the guard is decision D15 of the spec. -/
def Obligations.GuardAbortsWithoutLabel : Prop :=
    ∀ (s : State) (k : ClassifiedRegs), StageActs s → s.stage = .classified k →
    (s.rev = .A → k.label = none → step s = .next (raiseAbort .unclassifiableCommand s)) ∧
    (s.rev = .B ∨ k.label ≠ none → step s = .next { s with stage := .emit k })

/-- R181: in EMIT the record is assembled in the fixed order, handed to the sink once, and the invocation then returns EventProduced; nothing of the registers changes. The conditional field is `CondField(fsel, fval)` (R183). -/
def Obligations.EmitAssemblesTheRecord : Prop :=
    ∀ (s : State) (k : ClassifiedRegs) (l : StateLabel), StageActs s → s.stage = .emit k → s.ev = none →
    k.label = some l →
    ∃ t u, step s = .next t ∧ step t = .next u ∧ t.stage = s.stage ∧ t.results = s.results ∧
      t.sink = s.sink ++ [[(.model, .text (modelLabel s.rev)), (.id, .hexInteger k.command.id.toNat),
        (.cmd, .hexInteger k.command.cmd.toNat)] ++ condField k.fsel k.fval ++ [(.state, .text l.text)]] ∧
      u.sink = t.sink ∧ u.results = s.results ++ [⟨.eventProduced, .ok, 1⟩]

/-- R184, R186, R64: from EMIT with `ev_valid` low the next three steps raise `ev_valid` with the registers' values, lower it while `done` is raised with EventProduced, and end in IDLE with nothing held. The wire encoding, the order and the sink's acceptance are decisions D10, D19, D20 of the spec (logs 16 and 18); lowering `ev_valid` and raising `done` in one step is the model's (log 18). -/
def Obligations.EventPortIsRaisedOnceThenDone : Prop :=
    ∀ (s : State) (k : ClassifiedRegs) (l : StateLabel), StageActs s → s.stage = .emit k → s.ev = none →
    k.label = some l → ∃ t u v, step s = .next t ∧ step t = .next u ∧ step u = .next v ∧
      t.ev = some ⟨revBit s.rev, k.command.id, k.command.cmd, k.fsel.number, k.fval, l.number⟩ ∧ t.result = none ∧
      u.ev = none ∧ u.result = some ⟨.eventProduced, .ok, 1⟩ ∧
      v.ev = none ∧ v.result = none ∧ v.stage = .idle

/-- R184: the mapping from record to port is one to one: the record is rebuilt from the port's values and the two tables of R30, and equal port values mean equal registers. The wire encoding is decision D10 of the spec (log 16). -/
def Obligations.EventPortCarriesTheWholeRecord : Prop :=
    (∀ (rev : Rev) (id : BitVec 20) (cmd : BitVec 4) (l : StateLabel) (f : FieldSel) (v : BitVec 2),
      recordOfPort (eventPort rev id cmd l f v) = eventRecord rev id cmd l f v) ∧
    ∀ (rev rev' : Rev) (id id' : BitVec 20) (cmd cmd' : BitVec 4) (l l' : StateLabel) (f f' : FieldSel) (v v' : BitVec 2),
      eventPort rev id cmd l f v = eventPort rev' id' cmd' l' f' v' →
      rev = rev' ∧ id = id' ∧ cmd = cmd' ∧ l = l' ∧ f = f' ∧ v = v'

/-- R32: `code` and `events` for each of the five outcomes. -/
def Obligations.CodeAndEventsFollowOutcome : Prop :=
    Ending.eventProduced.port = ⟨.eventProduced, .ok, 1⟩ ∧
    Ending.noRepeatedFrame.port = ⟨.noRepeatedFrame, .abortLength, 0⟩ ∧
    Ending.lengthMismatch.port = ⟨.lengthMismatch, .abortLength, 0⟩ ∧
    Ending.sanityFailure.port = ⟨.sanityFailure, .failSanity, 0⟩ ∧
    Ending.unclassifiableCommand.port = ⟨.unclassifiableCommand, .abortEarly, 0⟩

/-- R199: a step of a coherent machine that raises `done` drives the outcome of `Decode` on the Capture with its code and events, the dispatcher receives exactly that, a success finds the record already with the sink; the next step lowers `done` and leaves IDLE with no register holding a value, unless reset arrives. -/
def Obligations.ReturnReportsDecodeAndEndsInIdle : Prop :=
    ∀ (s t : State) (p : ResultPort), Coherent s → step s = .next t → s.result = none → t.result = some p →
    p.outcome = (decodeCapture s.rev s.cap).1 ∧ p.code = p.outcome.code ∧ p.events = p.outcome.events ∧
    t.results = s.results ++ [p] ∧
    (p.outcome = .eventProduced → t.sink = s.sink ∧ s.sink.getLast? = (decodeCapture s.rev s.cap).2) ∧
    (t.rst = false → ∃ u, step t = .next u ∧ u.result = none ∧ u.pc = .idle ∧ u.stage.r? = none ∧
      u.stage.payload? = none ∧ u.stage.command? = none ∧ u.stage.classified? = none ∧
      u.results = t.results ∧ u.sink = t.sink)

/-- R216: what every abort does: no record is assembled, `ev_valid` stays as it was, the cause is returned, no later stage acts, and the next step ends the invocation; the diagnostic is up only for the sanity failure (R35). That it is up as `done` is raised and falls in the next step is the model's choice of instant (log 20). -/
def Obligations.AbortReturnsItsCauseAndNothingElse : Prop :=
    ∀ (cause : Ending) (s : State), s.rst = false →
    (raiseAbort cause s).sink = s.sink ∧ (raiseAbort cause s).ev = s.ev ∧ (raiseAbort cause s).stage = s.stage ∧
    (raiseAbort cause s).cap = s.cap ∧ (raiseAbort cause s).offers = s.offers ∧ (raiseAbort cause s).rev = s.rev ∧
    (raiseAbort cause s).result = some ⟨cause, cause.code, cause.events⟩ ∧
    (raiseAbort cause s).results = s.results ++ [⟨cause, cause.code, cause.events⟩] ∧
    ((raiseAbort cause s).diagSanity = true ↔ cause = .sanityFailure ∧ Config.verbose = true) ∧
    step (raiseAbort cause s) = .next { s with
      stage := .idle, result := none, diagSanity := false
      results := s.results ++ [⟨cause, cause.code, cause.events⟩] }

/-- The reset table (decision D13 of the spec, R39 and R245), for an FDCD of either revision and for `State.reset`, whose revision is the model's choice (log 1); the empty Capture and lists around the block are the model's (logs 6, 8, 19). -/
def Obligations.ResetLeavesNothing : Prop :=
    (∀ rev : Rev, let s := State.resetOf rev
      s.rev = rev ∧ s.pc = .idle ∧ s.stage.r? = none ∧ s.stage.payload? = none ∧ s.stage.command? = none ∧
      s.stage.classified? = none ∧ s.result = none ∧ outcomeNumber (s.result.map ResultPort.outcome) = 0 ∧
      s.ev = none ∧ s.diagSanity = false ∧ Quiet s) ∧
    ∃ rev, State.reset = State.resetOf rev

/-- Reset at any moment (decision D13 of the spec, R245; the reset line is the model's, log 17): the machine is at rest, no further result and no further record come of the invocation in progress, `REV`, the Capture and what was handed over before stay. Where the reset arrives while `done` = 1, the result counts as received since `done` rose and stays: the model's choice, log 35. -/
def Obligations.ResetAbandonsTheInvocation : Prop :=
    ∀ s : State, s.rst = true → ∃ t, step s = .next t ∧ Quiet t ∧ t.rev = s.rev ∧ t.cap = s.cap ∧
    t.offers = s.offers ∧ t.sink = s.sink ∧ t.results = s.results

/-- START (R195) in IDLE: an offered Capture is put on the read port and `pc` becomes LOCATE; a structure that breaks R51 is refused at the boundary (decision D3 of the spec, log 9); with nothing offered the machine waits. That the dispatcher offers as soon as it can is the model's (log 6). -/
def Obligations.StartTakesTheOfferedCapture : Prop :=
    ∀ s : State, StageActs s → s.stage = .idle →
    (∀ c rest, s.offers = c :: rest → Capture.wf c = true →
      step s = .next { s with cap := c, offers := rest, stage := .locate }) ∧
    (∀ c rest, s.offers = c :: rest → Capture.wf c = false → step s = .refused .notACapture) ∧
    (s.offers = [] → step s = .next s)

/-- The invariant `Coherent` holds after reset, for an FDCD of either revision and for `State.reset`. -/
def Obligations.ResetIsCoherent : Prop :=
    (∀ rev : Rev, Coherent (State.resetOf rev)) ∧ Coherent State.reset

/-- Every step from every coherent state, reset included, leaves a coherent state: the Capture obeys R51, the working registers hold what the operations so far put there (R25, R197), the event port shows the record the sink has just taken (R184, R186), the result outputs are those of `Decode` (R196, R199), the diagnostic is up only with a sanity failure (R35), and then only in the states in which its result stands, the model's choice of instant (log 20). -/
def Obligations.EveryStepKeepsCoherent : Prop :=
    ∀ s t : State, Coherent s → step s = .next t → Coherent t

/-- From a coherent state no step faults (R58: no read is out of bounds; R140, R160: every entry has a label), and the only refusal is START on a structure that breaks R51 (R61, log 9). -/
def Obligations.CoherentMachineNeverFaults : Prop :=
    ∀ s : State, Coherent s → (∀ f, step s ≠ .fault f) ∧
    ∀ x, step s = .refused x → x = .notACapture ∧ s.stage = .idle ∧
      ∃ c rest, s.offers = c :: rest ∧ Capture.wf c = false

/-- The whole block is the function `Decode` (R196): from any state at rest with a Capture offered, at most eleven steps give the dispatcher the outcome of `Decode`, the sink its record if there is one, leave the Capture as it was offered and the machine at rest with nothing kept (R20). Counting steps is the model's (log 5); what the sink and the dispatcher hold is theirs (log 19). -/
def Obligations.InvocationComputesDecode : Prop :=
    ∀ (s : State) (c : Capture) (rest : List Capture), Quiet s → s.offers = c :: rest → Capture.wf c = true →
    ∃ n, n ≤ 11 ∧ runSteps n s = .next (served s c rest) ∧ Quiet (served s c rest)

/-- R201: any sequence of Captures given one after another yields, one for one, the results of `Decode` on each, and the records of the successful ones in order; the same Capture twice yields the same result twice. -/
def Obligations.EachResultIsDecodeOfItsCapture : Prop :=
    ∀ s : State, Quiet s → (∀ c ∈ s.offers, Capture.wf c = true) →
    ∃ n t, runSteps n s = .next t ∧ Quiet t ∧ t.offers = [] ∧ t.rev = s.rev ∧
      t.results = s.results ++ s.offers.map (fun c => (decodeCapture s.rev c).1.port) ∧
      t.sink = s.sink ++ s.offers.filterMap (fun c => (decodeCapture s.rev c).2)

/-- Every invocation ends, with exactly one outcome (R200, R257): from any coherent state inside an invocation, without a reset, at most ten steps lead to rest, and the dispatcher has received exactly one result more, that of `Decode`. Counting steps is the model's (log 5). -/
def Obligations.EveryInvocationEnds : Prop :=
    ∀ s : State, Coherent s → StageActs s → s.stage ≠ .idle →
    ∃ n t, n ≤ 10 ∧ runSteps n s = .next t ∧ Quiet t ∧ t.offers = s.offers ∧
      t.results = s.results ++ [(decodeCapture s.rev s.cap).1.port]

/-- R200: Revision A ends with the four outcomes other than UnclassifiableCommand, Revision B with the three other than SanityFailure and UnclassifiableCommand; each is reached by some Capture; a record is present exactly with EventProduced. Rests on the cause split D18 (log 15). -/
def Obligations.OutcomesOfEachRevision : Prop :=
    (∀ cap, (decodeCapture .A cap).1 ≠ .unclassifiableCommand) ∧
    (∀ cap, (decodeCapture .B cap).1 ≠ .unclassifiableCommand ∧ (decodeCapture .B cap).1 ≠ .sanityFailure) ∧
    (∀ rev cap, (decodeCapture rev cap).2.isSome = true ↔ (decodeCapture rev cap).1 = .eventProduced) ∧
    (∀ rev, ∀ o ∈ [Ending.eventProduced, .noRepeatedFrame, .lengthMismatch],
      ∃ cap, Capture.wf cap = true ∧ (decodeCapture rev cap).1 = o) ∧
    ∃ cap, Capture.wf cap = true ∧ (decodeCapture .A cap).1 = .sanityFailure

/-- R218: a Revision A instance ends with SanityFailure (code FAIL_SANITY, no event) exactly when the first 24 bits of the located Frame are all zero; a Revision B instance never; and a step that raises it raises `diag_sanity` exactly if `VERBOSE`. That `diag_sanity` is up in the step that raises the result is the model's choice of instant (log 20); that it falls in the next step is said by DiagnosticPulsesOnlyOnSanityFailure. -/
def Obligations.SanityFailureExactlyOnZeroPayload : Prop :=
    (∀ (rev : Rev) (cap : Capture), (decodeCapture rev cap).1 = .sanityFailure ↔
      rev = .A ∧ ∃ r row, locateFrame cap = some r ∧ cap[r]? = some row ∧ ∀ k < 24, row[k]? = some false) ∧
    (∀ (rev : Rev) (cap : Capture), (decodeCapture rev cap).1 = .sanityFailure → (decodeCapture rev cap).2 = none) ∧
    Ending.sanityFailure.code = .failSanity ∧
    ∀ (s t : State) (p : ResultPort), step s = .next t → s.result = none → t.result = some p →
      p.outcome = .sanityFailure → t.sink = s.sink ∧ t.ev = s.ev ∧ t.diagSanity = Config.verbose

/-- R53: the block has no write path to the Capture. A step leaves every bit of it as it was, but for START, which takes the Capture the dispatcher offers; INVERT changes the registers `b0`, `b1`, `b2` alone. -/
def Obligations.CaptureIsOnlyRead : Prop :=
    (∀ s t : State, step s = .next t → t.cap = s.cap ∨
      (s.stage = .idle ∧ ∃ c rest, s.offers = c :: rest ∧ t.cap = c ∧ t.offers = rest)) ∧
    (∀ s t : State, step s = .next t → s.stage ≠ .idle → ∀ r i, bitAt t.cap r i = bitAt s.cap r i) ∧
    ∀ (p : PayloadRegs) (s : State), invert p s =
      { s with stage := .inverted ⟨p.r, invertByte p.b0, invertByte p.b1, invertByte p.b2⟩ }

/-- R28: no operation writes `REV`; and the dispatcher's offers shrink by exactly the one START takes (R195, log 6). -/
def Obligations.StrapIsNeverWritten : Prop :=
    ∀ s t : State, step s = .next t → t.rev = s.rev ∧
    (t.offers = s.offers ∨ s.stage = .idle ∧ ∃ c, s.offers = c :: t.offers)

/-- R26, R198: without a reset every step moves `pc` along the transfer table, steps inside a stage included (log 5); a transfer to IDLE from a later stage is the end of a result handshake; `pc` is at most 4. -/
def Obligations.SequencerFollowsTheTransfers : Prop :=
    ∀ s t : State, step s = .next t → s.rst = false →
    (s.pc, t.pc) ∈ pcTransfers ∧ (t.pc = .idle → s.pc ≠ .idle → s.result.isSome = true) ∧ t.pc.number.toNat ≤ 4

/-- R186, R199: a step gives the sink at most one record, and then in EMIT with `ev_valid` rising on the same values; it gives the dispatcher at most one result, and then with `done` rising on it; and `done` rises with EventProduced only as `ev_valid` falls (R64, decision D19, log 18). -/
def Obligations.HandshakesHandOverOnce : Prop :=
    ∀ s t : State, step s = .next t →
    (t.sink = s.sink ∨ ∃ e, s.pc = .emit ∧ s.ev = none ∧ t.ev = some e ∧ t.sink = s.sink ++ [recordOfPort e]) ∧
    (t.results = s.results ∨ ∃ p, s.result = none ∧ t.result = some p ∧ t.results = s.results ++ [p]) ∧
    (s.result = none → ∀ p, t.result = some p → p.outcome = .eventProduced → s.ev.isSome = true ∧ t.ev = none)

/-- R20, R22: no rule reads a value of an earlier invocation. Two machines that differ only in what their sink and dispatcher have received before take the same step: same stop, or next states that differ only in those lists, which grow by the same records and results. -/
def Obligations.HistoryIsNeverRead : Prop :=
    ∀ (s : State) (recs : List EventRecord) (res : List ResultPort),
    (∀ t, step s = .next t → ∃ newRecs newRes, t.sink = s.sink ++ newRecs ∧ t.results = s.results ++ newRes ∧
      step { s with sink := recs, results := res } =
        .next { t with sink := recs ++ newRecs, results := res ++ newRes }) ∧
    (∀ f, step s = .fault f → step { s with sink := recs, results := res } = .fault f) ∧
    (∀ x, step s = .refused x → step { s with sink := recs, results := res } = .refused x)

/-- R96, R202: Table A at `c ^ 0xF` and Table B at `c` have the same label; and where a Revision A instance reaches CLASSIFY, a Revision B instance on the same Capture does too, with `id` and `cmd` complemented, the same label, and both produce an event. -/
def Obligations.RevisionsAreComplementary : Prop :=
    (∀ c : BitVec 4, entryLabel (tableEntry .A (c ^^^ 0xF)) = entryLabel (tableEntry .B c)) ∧
    ∀ (cap : Capture) (a : CommandRegs), CommandAt .A cap a →
      ∃ b, CommandAt .B cap b ∧ a.id = b.id ^^^ 0xfffff ∧ a.cmd = b.cmd ^^^ 0xf ∧
        (decodeCapture .A cap).1 = .eventProduced ∧ (decodeCapture .B cap).1 = .eventProduced ∧
        ((decodeCapture .A cap).2.bind List.getLast?) = ((decodeCapture .B cap).2.bind List.getLast?)

/-- R180, R187, R188: the keys of every record appear in the order of its revision's schema, `model`, `id`, `cmd` first and `state` last, with at most one key between; an integer 0 occurs only under `opened`. -/
def Obligations.RecordsFollowTheSchema : Prop :=
    ∀ (rev : Rev) (id : BitVec 20) (cmd : BitVec 4),
    ((tableRecord rev id cmd).map Prod.fst).Sublist (schema rev) ∧
    (∃ mid, (tableRecord rev id cmd).map Prod.fst = [.model, .id, .cmd] ++ mid ++ [.state] ∧ mid.length ≤ 1) ∧
    ∀ k, (k, Value.integer 0) ∈ tableRecord rev id cmd → k = .opened

/-- R35: `diag_sanity` rises in a step exactly when that step raises SanityFailure and `VERBOSE` is true, and the step after any result lowers it. Where in the invocation the pulse lies is the model's choice (log 20). -/
def Obligations.DiagnosticPulsesOnlyOnSanityFailure : Prop :=
    ∀ s t : State, step s = .next t → s.diagSanity = false →
    (t.diagSanity = true ↔
      Config.verbose = true ∧ s.result = none ∧ t.result = some ⟨.sanityFailure, .failSanity, 0⟩) ∧
    (t.result.isSome = true → ∃ u, step t = .next u ∧ u.diagSanity = false)

/-- R63, R21, R236: concurrent invocations cannot affect one another. Steps of two different instances, in either order, leave the same members and give the sink the same events of each instance; only the order in which events of different instances reach the sink differs (U15; log 27). -/
def Obligations.InstancesDoNotInterfere : Prop :=
    ∀ (i j : Nat) (sys a b : Instances), i ≠ j → Instances.stepAt i sys = .next a → Instances.stepAt j sys = .next b →
    ∃ ab ba, Instances.stepAt j a = .next ab ∧ Instances.stepAt i b = .next ba ∧ ab.members = ba.members ∧
      ∀ k, Instances.eventsOf k ab = Instances.eventsOf k ba
end

