-- ==== Sys2Proof/Laws/Bits.lean ====
section
/-! SUPPORT. Packing and unpacking of bits, and the fields of a payload. -/

namespace Sys2Proof

theorem packNat_append_bit (bits : List Bool) (b : Bool) : packNat (bits ++ [b]) = 2 * packNat bits + b.toNat := by
  simp [packNat]

@[simp] theorem packNat_nil : packNat [] = 0 := rfl

@[simp] theorem unpackBits_length {n : Nat} (v : BitVec n) : (unpackBits v).length = n := by
  simp [unpackBits]

/-- Packing the first `m` bits of a value, most significant first, is a shift. -/
theorem packNat_msb_bits {n : Nat} (v : BitVec n) (m : Nat) (h : m ≤ n) :
    packNat ((List.range m).map (fun k => v.getMsbD k)) = v.toNat >>> (n - m) := by
  induction m with
  | zero => simp [Nat.shiftRight_eq_div_pow, Nat.div_eq_of_lt v.isLt]
  | succ m ih =>
    rw [List.range_succ, List.map_append, List.map_singleton, packNat_append_bit, ih (by omega)]
    have hb : v.getMsbD m = v.toNat.testBit (n - 1 - m) := by
      simp [BitVec.getMsbD_eq_getLsbD, BitVec.getLsbD, show m < n by omega]
    rw [hb, show n - m = (n - 1 - m) + 1 by omega, show n - (m + 1) = n - 1 - m by omega,
      Nat.shiftRight_succ, Nat.testBit, Nat.one_and_eq_mod_two]
    rcases Nat.mod_two_eq_zero_or_one (v.toNat >>> (n - 1 - m)) with h' | h' <;> simp [h'] <;> omega

/-- Unpacking and packing again gives the value back (R55). -/
@[simp] theorem packBits_unpackBits {n : Nat} (v : BitVec n) : packBits n (unpackBits v) = v := by
  simp [packBits, unpackBits, packNat_msb_bits v n (Nat.le_refl n)]

theorem packNat_lt (bits : List Bool) : packNat bits < 2 ^ bits.length := by
  induction bits using List.reverseRecOn with
  | nil => simp
  | append_singleton bits b ih =>
    rw [packNat_append_bit, List.length_append, List.length_singleton, Nat.pow_succ]
    have := Bool.toNat_le b
    omega

/-- Bit `k` of a packed sequence, counted from its first, is the sequence's bit `k` (R55). -/
theorem packNat_testBit (bits : List Bool) (k : Nat) (h : k < bits.length) :
    (packNat bits).testBit (bits.length - 1 - k) = bits[k] := by
  induction bits using List.reverseRecOn generalizing k with
  | nil => simp at h
  | append_singleton bits b ih =>
    have hb : 2 * packNat bits + b.toNat = Nat.bit b (packNat bits) := by cases b <;> simp [Nat.bit]
    rw [packNat_append_bit, hb]
    simp only [List.length_append, List.length_singleton] at h ⊢
    by_cases hk : k < bits.length
    · rw [List.getElem_append_left hk, show bits.length + 1 - 1 - k = (bits.length - 1 - k) + 1 by omega,
        Nat.testBit_bit_succ, ih k hk]
    · obtain rfl : k = bits.length := by omega
      simp

theorem getMsbD_packBits {n : Nat} {bits : List Bool} (hn : bits.length = n) {k : Nat} (h : k < bits.length) :
    (packBits n bits).getMsbD k = bits[k] := by
  subst hn
  rw [BitVec.getMsbD_eq_getLsbD, packBits, BitVec.getLsbD_ofNat, packNat_testBit bits k h]
  have : bits.length - 1 - k < bits.length := by omega
  simp [h, this]

/-- Packing and unpacking again gives the sequence back (R55). -/
theorem unpackBits_packBits {n : Nat} {bits : List Bool} (hn : bits.length = n) :
    unpackBits (packBits n bits) = bits := by
  apply List.ext_getElem
  · simp [hn]
  · intro k h1 h2
    simp only [unpackBits, List.getElem_map, List.getElem_range]
    exact getMsbD_packBits hn h2

/-- Three unpacked bytes and what follows, cut where the decoder cuts a row (R81). -/
theorem cut_bytes (b0 b1 b2 : Byte) (rest : List Bool) :
    (unpackBits b0 ++ (unpackBits b1 ++ (unpackBits b2 ++ rest))).take 8 = unpackBits b0 ∧
    ((unpackBits b0 ++ (unpackBits b1 ++ (unpackBits b2 ++ rest))).drop 8).take 8 = unpackBits b1 ∧
    ((unpackBits b0 ++ (unpackBits b1 ++ (unpackBits b2 ++ rest))).drop 16).take 8 = unpackBits b2 := by
  have take8 : ∀ (b : Byte) (l : List Bool), (unpackBits b ++ l).take 8 = unpackBits b := fun b l =>
    List.take_left' (unpackBits_length b)
  have drop8 : ∀ (b : Byte) (l : List Bool), (unpackBits b ++ l).drop 8 = l := fun b l =>
    List.drop_left' (unpackBits_length b)
  refine ⟨take8 _ _, by rw [drop8, take8], ?_⟩
  rw [show (16 : Nat) = 8 + 8 from rfl, ← List.drop_drop, drop8, drop8, take8]

@[simp] theorem invertByte_invertByte (b : Byte) : invertByte (invertByte b) = b := by
  simp [invertByte]

end Sys2Proof
end

