-- ==== Sys2Proof/Laws/State.lean ====
section
/-! SUPPORT. The small lemmas of the state updates: one per field and update, so that no proof unfolds a record. -/

namespace Sys2Proof.Machine

@[simp] theorem raiseDone_rev (o : Ending) (s : State) : (raiseDone o s).rev = s.rev := rfl
@[simp] theorem raiseDone_stage (o : Ending) (s : State) : (raiseDone o s).stage = s.stage := rfl
@[simp] theorem raiseDone_ev (o : Ending) (s : State) : (raiseDone o s).ev = s.ev := rfl
@[simp] theorem raiseDone_result (o : Ending) (s : State) : (raiseDone o s).result = some o.port := rfl
@[simp] theorem raiseDone_diagSanity (o : Ending) (s : State) : (raiseDone o s).diagSanity = s.diagSanity := rfl
@[simp] theorem raiseDone_rst (o : Ending) (s : State) : (raiseDone o s).rst = s.rst := rfl
@[simp] theorem raiseDone_cap (o : Ending) (s : State) : (raiseDone o s).cap = s.cap := rfl
@[simp] theorem raiseDone_offers (o : Ending) (s : State) : (raiseDone o s).offers = s.offers := rfl
@[simp] theorem raiseDone_sink (o : Ending) (s : State) : (raiseDone o s).sink = s.sink := rfl
@[simp] theorem raiseDone_results (o : Ending) (s : State) : (raiseDone o s).results = s.results ++ [o.port] := rfl

@[simp] theorem finishReturn_rev (s : State) : (finishReturn s).rev = s.rev := rfl
@[simp] theorem finishReturn_stage (s : State) : (finishReturn s).stage = .idle := rfl
@[simp] theorem finishReturn_ev (s : State) : (finishReturn s).ev = s.ev := rfl
@[simp] theorem finishReturn_result (s : State) : (finishReturn s).result = none := rfl
@[simp] theorem finishReturn_diagSanity (s : State) : (finishReturn s).diagSanity = false := rfl
@[simp] theorem finishReturn_rst (s : State) : (finishReturn s).rst = s.rst := rfl
@[simp] theorem finishReturn_cap (s : State) : (finishReturn s).cap = s.cap := rfl
@[simp] theorem finishReturn_offers (s : State) : (finishReturn s).offers = s.offers := rfl
@[simp] theorem finishReturn_sink (s : State) : (finishReturn s).sink = s.sink := rfl
@[simp] theorem finishReturn_results (s : State) : (finishReturn s).results = s.results := rfl

@[simp] theorem raiseAbort_rev (o : Ending) (s : State) : (raiseAbort o s).rev = s.rev := rfl
@[simp] theorem raiseAbort_stage (o : Ending) (s : State) : (raiseAbort o s).stage = s.stage := rfl
@[simp] theorem raiseAbort_ev (o : Ending) (s : State) : (raiseAbort o s).ev = s.ev := rfl
@[simp] theorem raiseAbort_result (o : Ending) (s : State) : (raiseAbort o s).result = some o.port := rfl
@[simp] theorem raiseAbort_diagSanity (o : Ending) (s : State) : (raiseAbort o s).diagSanity = (o == .sanityFailure && Config.verbose) := rfl
@[simp] theorem raiseAbort_rst (o : Ending) (s : State) : (raiseAbort o s).rst = s.rst := rfl
@[simp] theorem raiseAbort_cap (o : Ending) (s : State) : (raiseAbort o s).cap = s.cap := rfl
@[simp] theorem raiseAbort_offers (o : Ending) (s : State) : (raiseAbort o s).offers = s.offers := rfl
@[simp] theorem raiseAbort_sink (o : Ending) (s : State) : (raiseAbort o s).sink = s.sink := rfl
@[simp] theorem raiseAbort_results (o : Ending) (s : State) : (raiseAbort o s).results = s.results ++ [o.port] := rfl

@[simp] theorem applyReset_rev (s : State) : (applyReset s).rev = s.rev := rfl
@[simp] theorem applyReset_stage (s : State) : (applyReset s).stage = .idle := rfl
@[simp] theorem applyReset_ev (s : State) : (applyReset s).ev = none := rfl
@[simp] theorem applyReset_result (s : State) : (applyReset s).result = none := rfl
@[simp] theorem applyReset_diagSanity (s : State) : (applyReset s).diagSanity = false := rfl
@[simp] theorem applyReset_rst (s : State) : (applyReset s).rst = false := rfl
@[simp] theorem applyReset_cap (s : State) : (applyReset s).cap = s.cap := rfl
@[simp] theorem applyReset_offers (s : State) : (applyReset s).offers = s.offers := rfl
@[simp] theorem applyReset_sink (s : State) : (applyReset s).sink = s.sink := rfl
@[simp] theorem applyReset_results (s : State) : (applyReset s).results = s.results := rfl

@[simp] theorem endEmit_rev (s : State) : (endEmit s).rev = s.rev := rfl
@[simp] theorem endEmit_stage (s : State) : (endEmit s).stage = s.stage := rfl
@[simp] theorem endEmit_ev (s : State) : (endEmit s).ev = none := rfl
@[simp] theorem endEmit_result (s : State) : (endEmit s).result = some Ending.eventProduced.port := rfl
@[simp] theorem endEmit_diagSanity (s : State) : (endEmit s).diagSanity = s.diagSanity := rfl
@[simp] theorem endEmit_rst (s : State) : (endEmit s).rst = s.rst := rfl
@[simp] theorem endEmit_cap (s : State) : (endEmit s).cap = s.cap := rfl
@[simp] theorem endEmit_offers (s : State) : (endEmit s).offers = s.offers := rfl
@[simp] theorem endEmit_sink (s : State) : (endEmit s).sink = s.sink := rfl
@[simp] theorem endEmit_results (s : State) : (endEmit s).results = s.results ++ [Ending.eventProduced.port] := rfl

@[simp] theorem invert_rev (p : PayloadRegs) (s : State) : (invert p s).rev = s.rev := rfl
@[simp] theorem invert_stage (p : PayloadRegs) (s : State) : (invert p s).stage = .inverted ⟨p.r, invertByte p.b0, invertByte p.b1, invertByte p.b2⟩ := rfl
@[simp] theorem invert_ev (p : PayloadRegs) (s : State) : (invert p s).ev = s.ev := rfl
@[simp] theorem invert_result (p : PayloadRegs) (s : State) : (invert p s).result = s.result := rfl
@[simp] theorem invert_diagSanity (p : PayloadRegs) (s : State) : (invert p s).diagSanity = s.diagSanity := rfl
@[simp] theorem invert_rst (p : PayloadRegs) (s : State) : (invert p s).rst = s.rst := rfl
@[simp] theorem invert_cap (p : PayloadRegs) (s : State) : (invert p s).cap = s.cap := rfl
@[simp] theorem invert_offers (p : PayloadRegs) (s : State) : (invert p s).offers = s.offers := rfl
@[simp] theorem invert_sink (p : PayloadRegs) (s : State) : (invert p s).sink = s.sink := rfl
@[simp] theorem invert_results (p : PayloadRegs) (s : State) : (invert p s).results = s.results := rfl

@[simp] theorem extract_rev (p : PayloadRegs) (s : State) : (extract p s).rev = s.rev := rfl
@[simp] theorem extract_stage (p : PayloadRegs) (s : State) : (extract p s).stage = .classify ⟨p, extractId p.b0 p.b1 p.b2, extractCmd p.b2⟩ := rfl
@[simp] theorem extract_ev (p : PayloadRegs) (s : State) : (extract p s).ev = s.ev := rfl
@[simp] theorem extract_result (p : PayloadRegs) (s : State) : (extract p s).result = s.result := rfl
@[simp] theorem extract_diagSanity (p : PayloadRegs) (s : State) : (extract p s).diagSanity = s.diagSanity := rfl
@[simp] theorem extract_rst (p : PayloadRegs) (s : State) : (extract p s).rst = s.rst := rfl
@[simp] theorem extract_cap (p : PayloadRegs) (s : State) : (extract p s).cap = s.cap := rfl
@[simp] theorem extract_offers (p : PayloadRegs) (s : State) : (extract p s).offers = s.offers := rfl
@[simp] theorem extract_sink (p : PayloadRegs) (s : State) : (extract p s).sink = s.sink := rfl
@[simp] theorem extract_results (p : PayloadRegs) (s : State) : (extract p s).results = s.results := rfl

end Sys2Proof.Machine
end

