-- ==== Sys2Proof/Laws/Ops.lean ====
section
/-! SUPPORT. For each shared operation, one lemma that says all it can do; and the inversion lemma of the step. -/

namespace Sys2Proof.Machine

theorem startOn_next {c : Capture} {rest : List Capture} {s t : State} :
    startOn c rest s = .next t ↔ Capture.wf c = true ∧ t = { s with cap := c, offers := rest, stage := .locate } := by
  unfold startOn
  constructor
  · intro h
    split at h
    · rename_i hw
      cases h
      exact ⟨hw, rfl⟩
    · cases h
  · rintro ⟨hw, rfl⟩
    simp [hw]

theorem load_next {r : Nat} {s t : State} :
    load r s = .next t ↔ ∃ b0 b1 b2, memRead s.cap r 0 8 = some b0 ∧ memRead s.cap r 8 8 = some b1 ∧
      memRead s.cap r 16 8 = some b2 ∧ t = { s with stage := .loaded ⟨r, b0, b1, b2⟩ } := by
  unfold load
  constructor
  · intro h
    split at h
    · rename_i b0 b1 b2 h0 h1 h2
      exact ⟨b0, b1, b2, h0, h1, h2, by simpa [eq_comm] using h⟩
    · cases h
  · rintro ⟨b0, b1, b2, h0, h1, h2, rfl⟩
    simp [h0, h1, h2]

theorem locate_cases (s : State) :
    (∃ r, locateFrame s.cap = some r ∧ locate s = { s with stage := .decode r }) ∨
    (locateFrame s.cap = none ∧ locate s = raiseAbort (locateCause s.cap) s) := by
  unfold locate
  cases h : locateFrame s.cap with
  | none => exact .inr ⟨rfl, rfl⟩
  | some r => exact .inl ⟨r, rfl, rfl⟩

theorem sanity_cases (p : PayloadRegs) (s : State) :
    (allZero p.b0 p.b1 p.b2 = true ∧ sanity p s = raiseAbort .sanityFailure s) ∨
    (allZero p.b0 p.b1 p.b2 = false ∧ sanity p s = { s with stage := .sane p }) := by
  unfold sanity
  cases h : allZero p.b0 p.b1 p.b2 <;> simp

theorem guardLabel_cases (k : ClassifiedRegs) (s : State) :
    (s.rev = .A ∧ k.label = none ∧ guardLabel k s = raiseAbort .unclassifiableCommand s) ∨
    ((s.rev = .B ∨ k.label ≠ none) ∧ guardLabel k s = { s with stage := .emit k }) := by
  unfold guardLabel
  cases hr : s.rev <;> cases hl : k.label <;> simp

theorem emitEvent_next {k : ClassifiedRegs} {s t : State} :
    emitEvent k s = .next t ↔ ∃ l, k.label = some l ∧ t = { s with
      ev := some (eventPort s.rev k.command.id k.command.cmd l k.fsel k.fval)
      sink := s.sink ++ [eventRecord s.rev k.command.id k.command.cmd l k.fsel k.fval] } := by
  unfold emitEvent
  cases h : k.label with
  | none => simp
  | some l => simp [eq_comm]

theorem classifyAs_next {rev : Rev} {code : BitVec 4} {id : BitVec 20} {l : StateLabel} {f : FieldSel} {v : BitVec 2}
    {s t : State} : classifyAs rev code id l f v s = .next t ↔
      ∃ c, s.stage = .classify c ∧ s.rev = rev ∧ c.cmd = code ∧ c.id = id ∧
        t = { s with stage := .classified ⟨c, some l, f, v⟩ } := by
  unfold classifyAs
  constructor
  · intro h
    split at h
    · rename_i c hc
      split at h
      · rename_i hh
        exact ⟨c, hc, hh.1, hh.2.1, hh.2.2, by simpa [eq_comm] using h⟩
      · cases h
    all_goals cases h
  · rintro ⟨c, hc, h1, h2, h3, rfl⟩
    simp [hc, h1, h2, h3]

/-- `classifyAs` never faults, and refuses under one name. -/
theorem classifyAs_total (rev : Rev) (code : BitVec 4) (id : BitVec 20) (l : StateLabel) (f : FieldSel) (v : BitVec 2)
    (s : State) : (∃ t, classifyAs rev code id l f v s = .next t) ∨
      classifyAs rev code id l f v s = .refused .commandNotPending := by
  unfold classifyAs
  split
  · split
    · exact .inl ⟨_, rfl⟩
    · exact .inr rfl
  all_goals exact .inr rfl

/-- All a command can do where it completes: in CLASSIFY it writes `label` (present), `fsel` and `fval`. -/
theorem exec_next {i : Instr} {s t : State} (h : exec i s = .next t) :
    ∃ c l f v, s.stage = .classify c ∧ i = Instr.ofCommand s.rev c.id c.cmd ∧
      t = { s with stage := .classified ⟨c, some l, f, v⟩ } := by
  cases i <;>
    (obtain ⟨c, hc, hr, hm, hi, rfl⟩ := classifyAs_next.1 h
     exact ⟨c, _, _, _, hc, by simp [hr, hm, hi, Instr.ofCommand], rfl⟩)

/-- A command completes or is refused under one name. -/
theorem exec_total (i : Instr) (s : State) :
    (∃ t, exec i s = .next t) ∨ exec i s = .refused .commandNotPending := by
  cases i <;> exact classifyAs_total _ _ _ _ _ _ s

/-- Where no reset and no end of a handshake is due, the stage's own operation is next. -/
theorem nextOperation_of_acts {s : State} (h1 : s.rst = false) (h2 : s.result = none) :
    nextOperation s = stageOperation s := by
  simp [nextOperation, h1, h2]

/-- What one step can do, said once: reset, the end of a handshake, waiting, or the operation of the stage. -/
theorem step_cases {s t : State} (h : step s = .next t) :
    (s.rst = true ∧ t = applyReset s) ∨
    (s.rst = false ∧ s.result.isSome ∧ t = finishReturn s) ∨
    (s.rst = false ∧ s.result = none ∧
      ((s.stage = .idle ∧ s.offers = [] ∧ t = s) ∨
       (∃ c rest, s.stage = .idle ∧ s.offers = c :: rest ∧ startOn c rest s = .next t) ∨
       (s.stage = .locate ∧ t = locate s) ∨
       (∃ r, s.stage = .decode r ∧ load r s = .next t) ∨
       (∃ p, s.stage = .loaded p ∧ s.rev = .A ∧ t = sanity p s) ∨
       (∃ p, s.stage = .sane p ∧ s.rev = .A ∧ t = invert p s) ∨
       (∃ p, (s.stage = .inverted p ∨ s.rev = .B ∧ (s.stage = .loaded p ∨ s.stage = .sane p)) ∧ t = extract p s) ∨
       (∃ c, s.stage = .classify c ∧ exec (Instr.ofCommand s.rev c.id c.cmd) s = .next t) ∨
       (∃ k, s.stage = .classified k ∧ t = guardLabel k s) ∨
       (∃ k, s.stage = .emit k ∧ s.ev = none ∧ emitEvent k s = .next t) ∨
       (∃ k, s.stage = .emit k ∧ s.ev.isSome ∧ t = endEmit s))) := by
  unfold step nextOperation at h
  cases hrst : s.rst
  case true =>
    simp only [hrst] at h
    cases h
    exact .inl ⟨rfl, rfl⟩
  cases hres : s.result
  case some p =>
    simp only [hrst, hres] at h
    cases h
    exact .inr (.inl ⟨rfl, rfl, rfl⟩)
  simp only [hrst, hres, stageOperation] at h
  refine .inr (.inr ⟨rfl, rfl, ?_⟩)
  cases hst : s.stage with
  | idle =>
    cases ho : s.offers with
    | nil =>
      simp only [hst, ho] at h
      cases h
      exact .inl ⟨rfl, rfl, rfl⟩
    | cons c rest =>
      simp only [hst, ho] at h
      exact .inr (.inl ⟨c, rest, rfl, rfl, h⟩)
  | locate =>
    simp only [hst] at h
    cases h
    simp
  | decode r =>
    simp only [hst] at h
    simp [h]
  | loaded p =>
    cases hrev : s.rev <;> (simp only [hst, hrev] at h; cases h; simp)
  | sane p =>
    cases hrev : s.rev <;> (simp only [hst, hrev] at h; cases h; simp)
  | inverted p =>
    simp only [hst] at h
    cases h
    simp
  | classify c =>
    simp only [hst] at h
    simp [h]
  | classified k =>
    simp only [hst] at h
    cases h
    simp
  | emit k =>
    cases hev : s.ev with
    | none =>
      simp only [hst, hev] at h
      simp [h]
    | some e =>
      simp only [hst, hev] at h
      cases h
      simp

end Sys2Proof.Machine
end

