-- ==== Sys2Proof/Laws/Commands.lean ====
section
/-! SUPPORT. What `exec` is for each command: the one shared operation with the values of its rule. -/

namespace Sys2Proof.Machine

@[simp] theorem exec_aUnknown0 (id : BitVec 20) (s : State) :
    exec (.aUnknown0 id) s = classifyAs .A 0x0#4 id .unknown .absent 0 s := rfl
@[simp] theorem exec_aLocked (id : BitVec 20) (s : State) :
    exec (.aLocked id) s = classifyAs .A 0x1#4 id .locked .button 0 s := rfl
@[simp] theorem exec_aUnlocked (id : BitVec 20) (s : State) :
    exec (.aUnlocked id) s = classifyAs .A 0x2#4 id .unlocked .button 1 s := rfl
@[simp] theorem exec_aOpen3 (id : BitVec 20) (s : State) :
    exec (.aOpen3 id) s = classifyAs .A 0x3#4 id .opened .opened 1 s := rfl
@[simp] theorem exec_aHome (id : BitVec 20) (s : State) :
    exec (.aHome id) s = classifyAs .A 0x4#4 id .home .button 2 s := rfl
@[simp] theorem exec_aMotion (id : BitVec 20) (s : State) :
    exec (.aMotion id) s = classifyAs .A 0x5#4 id .motion .motion 1 s := rfl
@[simp] theorem exec_aOpen6 (id : BitVec 20) (s : State) :
    exec (.aOpen6 id) s = classifyAs .A 0x6#4 id .opened .opened 1 s := rfl
@[simp] theorem exec_aUnknown7 (id : BitVec 20) (s : State) :
    exec (.aUnknown7 id) s = classifyAs .A 0x7#4 id .unknown .absent 0 s := rfl
@[simp] theorem exec_aSos (id : BitVec 20) (s : State) :
    exec (.aSos id) s = classifyAs .A 0x8#4 id .sos .button 3 s := rfl
@[simp] theorem exec_aClose (id : BitVec 20) (s : State) :
    exec (.aClose id) s = classifyAs .A 0x9#4 id .closed .opened 0 s := rfl
@[simp] theorem exec_aUnknownA (id : BitVec 20) (s : State) :
    exec (.aUnknownA id) s = classifyAs .A 0xa#4 id .unknown .absent 0 s := rfl
@[simp] theorem exec_aUnknownB (id : BitVec 20) (s : State) :
    exec (.aUnknownB id) s = classifyAs .A 0xb#4 id .unknown .absent 0 s := rfl
@[simp] theorem exec_aUnknownC (id : BitVec 20) (s : State) :
    exec (.aUnknownC id) s = classifyAs .A 0xc#4 id .unknown .absent 0 s := rfl
@[simp] theorem exec_aUnknownD (id : BitVec 20) (s : State) :
    exec (.aUnknownD id) s = classifyAs .A 0xd#4 id .unknown .absent 0 s := rfl
@[simp] theorem exec_aUnknownE (id : BitVec 20) (s : State) :
    exec (.aUnknownE id) s = classifyAs .A 0xe#4 id .unknown .absent 0 s := rfl
@[simp] theorem exec_aUnknownF (id : BitVec 20) (s : State) :
    exec (.aUnknownF id) s = classifyAs .A 0xf#4 id .unknown .absent 0 s := rfl
@[simp] theorem exec_bUnknown0 (id : BitVec 20) (s : State) :
    exec (.bUnknown0 id) s = classifyAs .B 0x0#4 id .unknown .absent 0 s := rfl
@[simp] theorem exec_bUnknown1 (id : BitVec 20) (s : State) :
    exec (.bUnknown1 id) s = classifyAs .B 0x1#4 id .unknown .absent 0 s := rfl
@[simp] theorem exec_bUnknown2 (id : BitVec 20) (s : State) :
    exec (.bUnknown2 id) s = classifyAs .B 0x2#4 id .unknown .absent 0 s := rfl
@[simp] theorem exec_bUnknown3 (id : BitVec 20) (s : State) :
    exec (.bUnknown3 id) s = classifyAs .B 0x3#4 id .unknown .absent 0 s := rfl
@[simp] theorem exec_bUnknown4 (id : BitVec 20) (s : State) :
    exec (.bUnknown4 id) s = classifyAs .B 0x4#4 id .unknown .absent 0 s := rfl
@[simp] theorem exec_bUnknown5 (id : BitVec 20) (s : State) :
    exec (.bUnknown5 id) s = classifyAs .B 0x5#4 id .unknown .absent 0 s := rfl
@[simp] theorem exec_bClose (id : BitVec 20) (s : State) :
    exec (.bClose id) s = classifyAs .B 0x6#4 id .closed .opened 0 s := rfl
@[simp] theorem exec_bSos (id : BitVec 20) (s : State) :
    exec (.bSos id) s = classifyAs .B 0x7#4 id .sos .sos 1 s := rfl
@[simp] theorem exec_bUnknown8 (id : BitVec 20) (s : State) :
    exec (.bUnknown8 id) s = classifyAs .B 0x8#4 id .unknown .absent 0 s := rfl
@[simp] theorem exec_bOpen9 (id : BitVec 20) (s : State) :
    exec (.bOpen9 id) s = classifyAs .B 0x9#4 id .opened .opened 1 s := rfl
@[simp] theorem exec_bMotion (id : BitVec 20) (s : State) :
    exec (.bMotion id) s = classifyAs .B 0xa#4 id .motion .motion 1 s := rfl
@[simp] theorem exec_bHome (id : BitVec 20) (s : State) :
    exec (.bHome id) s = classifyAs .B 0xb#4 id .home .home 1 s := rfl
@[simp] theorem exec_bOpenC (id : BitVec 20) (s : State) :
    exec (.bOpenC id) s = classifyAs .B 0xc#4 id .opened .opened 1 s := rfl
@[simp] theorem exec_bUnlocked (id : BitVec 20) (s : State) :
    exec (.bUnlocked id) s = classifyAs .B 0xd#4 id .unlocked .unlock 1 s := rfl
@[simp] theorem exec_bLocked (id : BitVec 20) (s : State) :
    exec (.bLocked id) s = classifyAs .B 0xe#4 id .locked .lock 1 s := rfl
@[simp] theorem exec_bUnknownF (id : BitVec 20) (s : State) :
    exec (.bUnknownF id) s = classifyAs .B 0xf#4 id .unknown .absent 0 s := rfl

/-- Where the command's revision, code and `id` are at hand, the shared operation completes. -/
theorem classifyAs_atHand {s : State} {c : CommandRegs} (hc : s.stage = .classify c) (l : StateLabel) (f : FieldSel)
    (v : BitVec 2) :
    classifyAs s.rev c.cmd c.id l f v s = .next { s with stage := .classified ⟨c, some l, f, v⟩ } :=
  classifyAs_next.2 ⟨c, hc, rfl, rfl, rfl, rfl⟩

end Sys2Proof.Machine
end

