-- ==== Sys2Proof/Laws/Memory.lean ====
section
/-! SUPPORT. The Capture: what its reads answer, and that the operation that puts one on the port puts a Capture there. -/

namespace Sys2Proof.Machine

theorem memRead_of_row {cap : Capture} {r i n : Nat} {row : Row} (hr : cap[r]? = some row) (hn : i + n ≤ row.length) :
    memRead cap r i n = some (packBits n ((row.drop i).take n)) := by
  simp [memRead, hr, hn]

theorem memRead_of_noRow {cap : Capture} {r i n : Nat} (hr : cap[r]? = none) : memRead cap r i n = none := by
  simp [memRead, hr]

theorem memRead_beyond {cap : Capture} {r i n : Nat} {row : Row} (hr : cap[r]? = some row) (hn : row.length < i + n) :
    memRead cap r i n = none := by
  simp [memRead, hr, Nat.not_le.2 hn]

@[simp] theorem resetOf_cap_wf (rev : Rev) : Capture.wf (State.resetOf rev).cap = true := by
  simp [Capture.wf, State.resetOf]

/-- START is the one operation that puts a Capture on the port, and it puts none there that breaks R51 (R61). -/
theorem startOn_keeps_wf {c : Capture} {rest : List Capture} {s t : State} (h : startOn c rest s = .next t) :
    Capture.wf t.cap = true := by
  obtain ⟨hw, rfl⟩ := startOn_next.1 h
  exact hw

/-- Two copies of a 25-bit row are a Capture, whatever the open bounds are (R9). -/
theorem twoRows_wf {row : Row} (h : row.length = 25) : Capture.wf [row, row] = true := by
  simp [Capture.wf, Config.nrowsMax, Config.rowBitsMax, h]

/-- The Capture a fetch word stands in obeys R51. -/
theorem withFetchWord_wf (s : State) (nbits w : Nat) : Capture.wf (s.withFetchWord nbits w).cap = true :=
  twoRows_wf (by simp [frameOf, unpackBits])

end Sys2Proof.Machine
end

