-- ==== Sys2Proof/Laws/Locator.lean ====
section
/-! SUPPORT. What LOCATE finds, in terms of rows (spec/40_frame_locator.md R111 to R114), and what LOAD can then read. -/

namespace Sys2Proof.Machine

theorem rowEq_iff {cap : Capture} {r q : Nat} :
    rowEq cap r q = true ↔ ∃ row, cap[r]? = some row ∧ cap[q]? = some row := by
  unfold rowEq
  cases hr : cap[r]? <;> cases hq : cap[q]? <;> simp [eq_comm]

theorem rep_iff {cap : Capture} {r : Nat} :
    rep cap r = true ↔ ∃ row, cap[r]? = some row ∧ cap[r + 1]? = some row := by
  unfold rep
  rw [Bool.and_eq_true, rowEq_iff, decide_eq_true_iff]
  constructor
  · exact fun h => h.2
  · rintro ⟨row, h0, h1⟩
    exact ⟨(List.getElem?_eq_some_iff.1 h1).1, row, h0, h1⟩

theorem qual_iff_frameAt {cap : Capture} {r : Nat} : qual cap r = true ↔ FrameAt cap r := by
  unfold qual FrameAt
  rw [Bool.and_eq_true, rep_iff, rowLen]
  constructor
  · rintro ⟨⟨row, h0, h1⟩, h2⟩
    exact ⟨row, h0, h1, by simpa [h0, Config.frameBits] using h2⟩
  · rintro ⟨row, h0, h1, h2⟩
    exact ⟨⟨row, h0, h1⟩, by simp [h0, h2, Config.frameBits]⟩

theorem FrameAt.lt_nrows {cap : Capture} {r : Nat} (h : FrameAt cap r) : r < nrows cap := by
  obtain ⟨row, h0, -, -⟩ := h
  exact (List.getElem?_eq_some_iff.1 h0).1

theorem locateFrame_eq_some {cap : Capture} {r : Nat} :
    locateFrame cap = some r ↔ FrameAt cap r ∧ ∀ q < r, ¬ FrameAt cap q := by
  unfold locateFrame
  rw [List.find?_range_eq_some]
  constructor
  · rintro ⟨h, -, hl⟩
    exact ⟨qual_iff_frameAt.1 h, fun q hq hf => by simpa [qual_iff_frameAt.2 hf] using hl q hq⟩
  · rintro ⟨h, hl⟩
    refine ⟨qual_iff_frameAt.2 h, List.mem_range.2 h.lt_nrows, fun q hq => ?_⟩
    rw [Bool.not_eq_true', Bool.eq_false_iff]
    exact fun hf => hl q hq (qual_iff_frameAt.1 hf)

theorem locateFrame_eq_none {cap : Capture} : locateFrame cap = none ↔ ∀ r, ¬ FrameAt cap r := by
  unfold locateFrame
  rw [List.find?_eq_none]
  constructor
  · exact fun h r hf => h r (List.mem_range.2 hf.lt_nrows) (qual_iff_frameAt.2 hf)
  · exact fun h r _ hq => h r (qual_iff_frameAt.1 hq)

theorem someRowRepeats_iff {cap : Capture} :
    (List.range (nrows cap)).any (rep cap) = true ↔ SomeRowRepeats cap := by
  rw [List.any_eq_true]
  constructor
  · rintro ⟨r, -, h⟩
    obtain ⟨row, h0, h1⟩ := rep_iff.1 h
    exact ⟨r, row, h0, h1⟩
  · rintro ⟨r, row, h0, h1⟩
    exact ⟨r, List.mem_range.2 (List.getElem?_eq_some_iff.1 h0).1, rep_iff.2 ⟨row, h0, h1⟩⟩

/-- The located row is 25 bits long, so the three reads of LOAD have values (R58). -/
theorem memRead_of_located {cap : Capture} {r : Nat} (h : locateFrame cap = some r) :
    ∃ row, cap[r]? = some row ∧ row.length = 25 ∧
      memRead cap r 0 8 = some (packBits 8 (row.take 8)) ∧
      memRead cap r 8 8 = some (packBits 8 ((row.drop 8).take 8)) ∧
      memRead cap r 16 8 = some (packBits 8 ((row.drop 16).take 8)) := by
  obtain ⟨⟨row, h0, -, hl⟩, -⟩ := locateFrame_eq_some.1 h
  exact ⟨row, h0, hl, by simpa using memRead_of_row (i := 0) h0 (by omega), memRead_of_row h0 (by omega),
    memRead_of_row h0 (by omega)⟩

/-- `Decode` on a Capture whose Frame LOCATE has found (R196). -/
theorem decodeCapture_of_rawAt {rev : Rev} {cap : Capture} {p : PayloadRegs} (h : RawAt cap p) :
    decodeCapture rev cap = decodeLoaded rev p.b0 p.b1 p.b2 := by
  obtain ⟨hr, h0, h1, h2⟩ := h
  simp [decodeCapture, hr, h0, h1, h2]

end Sys2Proof.Machine
end

