-- ==== Sys2Proof/Laws/PerInstr.lean ====
section
/-! SUPPORT. One lemma per command: its fields name it again. -/

namespace Sys2Proof.Laws.Fields

/-- A command is the one that its own code names under its own revision with its own `id` (R95). -/
def Statement (i : Instr) : Prop := Instr.ofCommand i.rev i.id i.cmd = i

theorem aUnknown0 (id : BitVec 20) : Statement (.aUnknown0 id) := rfl
theorem aLocked (id : BitVec 20) : Statement (.aLocked id) := rfl
theorem aUnlocked (id : BitVec 20) : Statement (.aUnlocked id) := rfl
theorem aOpen3 (id : BitVec 20) : Statement (.aOpen3 id) := rfl
theorem aHome (id : BitVec 20) : Statement (.aHome id) := rfl
theorem aMotion (id : BitVec 20) : Statement (.aMotion id) := rfl
theorem aOpen6 (id : BitVec 20) : Statement (.aOpen6 id) := rfl
theorem aUnknown7 (id : BitVec 20) : Statement (.aUnknown7 id) := rfl
theorem aSos (id : BitVec 20) : Statement (.aSos id) := rfl
theorem aClose (id : BitVec 20) : Statement (.aClose id) := rfl
theorem aUnknownA (id : BitVec 20) : Statement (.aUnknownA id) := rfl
theorem aUnknownB (id : BitVec 20) : Statement (.aUnknownB id) := rfl
theorem aUnknownC (id : BitVec 20) : Statement (.aUnknownC id) := rfl
theorem aUnknownD (id : BitVec 20) : Statement (.aUnknownD id) := rfl
theorem aUnknownE (id : BitVec 20) : Statement (.aUnknownE id) := rfl
theorem aUnknownF (id : BitVec 20) : Statement (.aUnknownF id) := rfl
theorem bUnknown0 (id : BitVec 20) : Statement (.bUnknown0 id) := rfl
theorem bUnknown1 (id : BitVec 20) : Statement (.bUnknown1 id) := rfl
theorem bUnknown2 (id : BitVec 20) : Statement (.bUnknown2 id) := rfl
theorem bUnknown3 (id : BitVec 20) : Statement (.bUnknown3 id) := rfl
theorem bUnknown4 (id : BitVec 20) : Statement (.bUnknown4 id) := rfl
theorem bUnknown5 (id : BitVec 20) : Statement (.bUnknown5 id) := rfl
theorem bClose (id : BitVec 20) : Statement (.bClose id) := rfl
theorem bSos (id : BitVec 20) : Statement (.bSos id) := rfl
theorem bUnknown8 (id : BitVec 20) : Statement (.bUnknown8 id) := rfl
theorem bOpen9 (id : BitVec 20) : Statement (.bOpen9 id) := rfl
theorem bMotion (id : BitVec 20) : Statement (.bMotion id) := rfl
theorem bHome (id : BitVec 20) : Statement (.bHome id) := rfl
theorem bOpenC (id : BitVec 20) : Statement (.bOpenC id) := rfl
theorem bUnlocked (id : BitVec 20) : Statement (.bUnlocked id) := rfl
theorem bLocked (id : BitVec 20) : Statement (.bLocked id) := rfl
theorem bUnknownF (id : BitVec 20) : Statement (.bUnknownF id) := rfl

end Sys2Proof.Laws.Fields
end

