-- ==== Sys2Proof/Tests/Slice0.lean ====
section
/-! SUPPORT. Small tests: well-formedness, words written out from the spec, the vectors of spec/95_test_vectors.md, and
for each statement with hypotheses a witness that meets them. Expected values are the spec's own. -/

open Sys2Proof Sys2Proof.Machine

namespace Sys2Proof.Tests

/-- The literal `{n}hex` of R11 and R98: the first `n` bits of `d` hexadecimal digits. -/
def lit (n d v : Nat) : Row := (unpackBits (BitVec.ofNat (4 * d) v)).take n

/-- The literal `{25}hhhhhhh`. -/
def frame (v : Nat) : Row := lit 25 7 v

/-- A machine over a Capture at a point of an invocation. -/
def machineAt (rev : Rev) (cap : Capture) (st : Stage) : State := { State.resetOf rev with cap := cap, stage := st }

/-! Well-formedness: for each check an ill-formed term it refuses. -/

/-- The one command no Frame carries (R99). -/
theorem test_illFormed_aUnknownF : (Instr.aUnknownF 0xfffff).wellFormed = false := by decide
theorem test_wellFormed_aUnknownF : (Instr.aUnknownF 0xffffe).wellFormed = true := by decide
theorem test_wellFormed_bUnknownF : (Instr.bUnknownF 0xfffff).wellFormed = true := by decide

/-- A structure of more than `NROWS_MAX` rows is no Capture (R51, R61). -/
theorem test_illFormed_tooManyRows : Capture.wf (List.replicate (Config.nrowsMax + 1) []) = false := by
  simp [Capture.wf]

/-- A row of more than `ROWBITS_MAX` bits makes no Capture (R51, R61). -/
theorem test_illFormed_rowTooLong : Capture.wf [List.replicate (Config.rowBitsMax + 1) true] = false := by
  simp [Capture.wf]

theorem test_wellFormed_emptyCapture : Capture.wf [] = true := by simp [Capture.wf]

/-! Words written out bit by bit from ROW25, RAW24 and PL24 (R81 to R84). -/

/-- A.CLOSE 0x12345: raw ed cb a6, sync bit 1. -/
theorem test_decode_aClose : decodeRow .A
    [true, true, true, false, true, true, false, true, true, true, false, false, true, false, true, true,
     true, false, true, false, false, true, true, false, true] = .ok (.aClose 0x12345) := rfl

/-- B.SOS 0x12345: raw 12 34 57, sync bit 0. -/
theorem test_decode_bSos : decodeRow .B
    [false, false, false, true, false, false, true, false, false, false, true, true, false, true, false, false,
     false, true, false, true, false, true, true, true, false] = .ok (.bSos 0x12345) := rfl

/-- 24 zero bits: refused in Revision A, a command in Revision B (P1, P2). -/
theorem test_decode_zero_A : decodeRow .A (frame 0x0000008) = .error .allZeroPayload := rfl
theorem test_decode_zero_B : decodeRow .B (frame 0x0000000) = .ok (.bUnknown0 0) := rfl

/-- A 24-bit row is no Frame (R80, R87). -/
theorem test_decode_short : decodeRow .B (lit 24 6 0x12345a) = .error .notAFrame := rfl

/-- `Enc(A, 0x12345, 0x5)` = ed cb aa, `Enc(B, 0x12345, 0xa)` = 12 34 5a (R99). -/
theorem test_encode_A : encode (.aMotion 0x12345) false = frame 0xedcbaa0 := rfl
theorem test_encode_B : encode (.bMotion 0x12345) true = frame 0x12345a8 := rfl

/-- A table word: PL24, `id` in bits 23 to 4, `cmd` in bits 3 to 0, under the strap of `State.reset`. -/
theorem test_tableWord : decodeTableWord 24 0x123455 = some (.aMotion 0x12345) := by decide
theorem test_tableWord_refused : decodeTableWord 24 0xffffff = none := by decide

/-- The word placed for the next step is run by the next step (A.CLOSE: close, opened, 0). -/
theorem test_fetch : ∃ t, step (State.reset.withFetchWord 24 0x123459) = .next t ∧
    t.stage.classified?.map (fun k => (k.label, k.fsel, k.fval)) = some (some .closed, .opened, 0) := ⟨_, rfl, rfl⟩

/-- The same on a Revision B machine: code 0x9 is OPEN9 (open, opened, 1). -/
theorem test_fetch_B : ∃ t, step ((State.resetOf .B).withFetchWord 24 0x123459) = .next t ∧
    t.stage.classified?.map (fun k => (k.label, k.fsel, k.fval)) = some (some .opened, .opened, 1) := ⟨_, rfl, rfl⟩

/-- A command of the other revision is not at hand. -/
theorem test_otherRevision :
    exec (.bMotion 0x12345) ((State.resetOf .A).withFetchWord 24 0x12345a) = .refused .commandNotPending := rfl

/-! The Frame Locator: 95_test_vectors.md section 2, `X` = {25}12345a0, `Y` = {25}edcba68. -/

theorem test_L1 : decodeCapture .A [] = (.noRepeatedFrame, none) := rfl
theorem test_L2 : decodeCapture .A [frame 0x12345a0] = (.noRepeatedFrame, none) := rfl
theorem test_L3 : decodeCapture .B [frame 0x12345a0, frame 0xedcba68, frame 0x12345a0] = (.noRepeatedFrame, none) := rfl
theorem test_L4 : decodeCapture .B [frame 0x12345a0, frame 0x12345a8] = (.noRepeatedFrame, none) := rfl
theorem test_L5 : decodeCapture .A [frame 0x12345a0, lit 26 7 0x12345a0] = (.noRepeatedFrame, none) := rfl
theorem test_L6 : decodeCapture .A [lit 24 6 0x12345a, lit 24 6 0x12345a] = (.lengthMismatch, none) := rfl
theorem test_L7 : decodeCapture .B [lit 26 7 0x12345a0, lit 26 7 0x12345a0] = (.lengthMismatch, none) := rfl
theorem test_L8 : decodeCapture .B [[], []] = (.lengthMismatch, none) := rfl
theorem test_L9 : locateFrame [frame 0x12345a0, frame 0x12345a0, frame 0x12345a0] = some 0 := rfl
theorem test_L10 : locateFrame [lit 24 6 0x12345a, lit 24 6 0x12345a, frame 0x12345a0, frame 0x12345a0] = some 2 := rfl
theorem test_L11 : locateFrame [lit 12 3 0xabc, frame 0x12345a0, frame 0x12345a0] = some 1 := rfl
theorem test_L12 : locateFrame [frame 0x12345a0, frame 0x12345a0, frame 0xedcba68, frame 0xedcba68] = some 0 := rfl
theorem test_L13 : locateFrame [frame 0x12345a0, frame 0xedcba68, frame 0xedcba68] = some 1 := rfl
theorem test_L14 : locateFrame [frame 0xffffff8, lit 13 4 0xaaa8, frame 0xedcba68, frame 0xedcba68, frame 0xedcba60]
    = some 2 := rfl

/-! The Payload Decoder: 95_test_vectors.md section 3, on raw bytes. -/

theorem test_P1_A : decodeBytes .A 0x00 0x00 0x00 = .error .allZeroPayload := rfl
theorem test_P1_B : decodeBytes .B 0x00 0x00 0x00 = .ok (.bUnknown0 0x00000) := rfl
theorem test_P3_A : decodeBytes .A 0xff 0xff 0xff = .ok (.aUnknown0 0x00000) := rfl
theorem test_P4_A : decodeBytes .A 0x00 0x00 0x01 = .ok (.aUnknownE 0xfffff) := rfl
theorem test_P5_A : decodeBytes .A 0x80 0x00 0x00 = .ok (.aUnknownF 0x7ffff) := rfl
theorem test_P5_B : decodeBytes .B 0x80 0x00 0x00 = .ok (.bUnknown0 0x80000) := rfl
theorem test_P6_A : decodeBytes .A 0x00 0x00 0x10 = .ok (.aUnknownF 0xffffe) := rfl
theorem test_P7_A : decodeBytes .A 0x12 0x34 0x5a = .ok (.aMotion 0xedcba) := rfl
theorem test_P8_A : decodeBytes .A 0xed 0xcb 0xa5 = .ok (.aUnknownA 0x12345) := rfl
theorem test_P8_B : decodeBytes .B 0xed 0xcb 0xa5 = .ok (.bUnknown5 0xedcba) := rfl

/-- The last row of the field arithmetic table: a5 f0 7e. -/
theorem test_fields : extractId 0xa5 0xf0 0x7e = 0xa5f07 ∧ extractCmd 0x7e = 0xe := by decide

/-- The event port of A.CLOSE 0x12345: 95_test_vectors.md section 8, program 2. -/
theorem test_port_program2 : eventPort .A 0x12345 0x9 .closed .opened 0 = ⟨0, 0x12345, 0x9, 2, 0, 3⟩ := by decide

/-- The event port of B.MOTION 0x12345: 95_test_vectors.md section 1, S1. -/
theorem test_port_S1 : eventPort .B 0x12345 0xa .motion .motion 1 = ⟨1, 0x12345, 0xa, 1, 1, 1⟩ := by decide

/-- The output numbers of 95_test_vectors.md section 6. -/
theorem test_outcomeNumbers :
    [Ending.eventProduced, .noRepeatedFrame, .lengthMismatch, .sanityFailure, .unclassifiableCommand].map
      (fun o => (outcomeNumber (some o), o.code.number, o.events)) =
    [(1, 0, 1), (2, 1, 0), (3, 1, 0), (4, 3, 0), (5, 2, 0)] := by decide

/-- The strings of R30: keys and labels are lowercase ASCII, the label of a closed contact is `close`. -/
theorem test_texts : StateLabel.closed.text = "close" ∧ StateLabel.opened.text = "open" ∧ Key.opened.text = "opened" :=
  ⟨rfl, rfl, rfl⟩

/-! The records of 95_test_vectors.md section 4: Revision A, `id` = 0x12345. -/

theorem test_record_aUnknown0 : decodeCapture .A [frame 0xedcbaf0, frame 0xedcbaf0] = (.eventProduced,
    some [(.model, .text Config.modelLabelA), (.id, .hexInteger 0x12345), (.cmd, .hexInteger 0), (.state, .text "unknown")]) :=
  rfl
theorem test_record_aLocked : decodeCapture .A [frame 0xedcbae0, frame 0xedcbae0] = (.eventProduced,
    some [(.model, .text Config.modelLabelA), (.id, .hexInteger 0x12345), (.cmd, .hexInteger 1), (.button, .text "lock"), (.state, .text "locked")]) :=
  rfl
theorem test_record_aUnlocked : decodeCapture .A [frame 0xedcbad0, frame 0xedcbad0] = (.eventProduced,
    some [(.model, .text Config.modelLabelA), (.id, .hexInteger 0x12345), (.cmd, .hexInteger 2), (.button, .text "unlock"), (.state, .text "unlocked")]) :=
  rfl
theorem test_record_aOpen3 : decodeCapture .A [frame 0xedcbac0, frame 0xedcbac0] = (.eventProduced,
    some [(.model, .text Config.modelLabelA), (.id, .hexInteger 0x12345), (.cmd, .hexInteger 3), (.opened, .integer 1), (.state, .text "open")]) :=
  rfl
theorem test_record_aHome : decodeCapture .A [frame 0xedcbab0, frame 0xedcbab0] = (.eventProduced,
    some [(.model, .text Config.modelLabelA), (.id, .hexInteger 0x12345), (.cmd, .hexInteger 4), (.button, .text "home"), (.state, .text "home")]) :=
  rfl
theorem test_record_aMotion : decodeCapture .A [frame 0xedcbaa0, frame 0xedcbaa0] = (.eventProduced,
    some [(.model, .text Config.modelLabelA), (.id, .hexInteger 0x12345), (.cmd, .hexInteger 5), (.motion, .integer 1), (.state, .text "motion")]) :=
  rfl
theorem test_record_aOpen6 : decodeCapture .A [frame 0xedcba90, frame 0xedcba90] = (.eventProduced,
    some [(.model, .text Config.modelLabelA), (.id, .hexInteger 0x12345), (.cmd, .hexInteger 6), (.opened, .integer 1), (.state, .text "open")]) :=
  rfl
theorem test_record_aUnknown7 : decodeCapture .A [frame 0xedcba80, frame 0xedcba80] = (.eventProduced,
    some [(.model, .text Config.modelLabelA), (.id, .hexInteger 0x12345), (.cmd, .hexInteger 7), (.state, .text "unknown")]) :=
  rfl
theorem test_record_aSos : decodeCapture .A [frame 0xedcba70, frame 0xedcba70] = (.eventProduced,
    some [(.model, .text Config.modelLabelA), (.id, .hexInteger 0x12345), (.cmd, .hexInteger 8), (.button, .text "sos"), (.state, .text "sos")]) :=
  rfl
theorem test_record_aClose : decodeCapture .A [frame 0xedcba60, frame 0xedcba60] = (.eventProduced,
    some [(.model, .text Config.modelLabelA), (.id, .hexInteger 0x12345), (.cmd, .hexInteger 9), (.opened, .integer 0), (.state, .text "close")]) :=
  rfl
theorem test_record_aUnknownA : decodeCapture .A [frame 0xedcba50, frame 0xedcba50] = (.eventProduced,
    some [(.model, .text Config.modelLabelA), (.id, .hexInteger 0x12345), (.cmd, .hexInteger 10), (.state, .text "unknown")]) :=
  rfl
theorem test_record_aUnknownB : decodeCapture .A [frame 0xedcba40, frame 0xedcba40] = (.eventProduced,
    some [(.model, .text Config.modelLabelA), (.id, .hexInteger 0x12345), (.cmd, .hexInteger 11), (.state, .text "unknown")]) :=
  rfl
theorem test_record_aUnknownC : decodeCapture .A [frame 0xedcba30, frame 0xedcba30] = (.eventProduced,
    some [(.model, .text Config.modelLabelA), (.id, .hexInteger 0x12345), (.cmd, .hexInteger 12), (.state, .text "unknown")]) :=
  rfl
theorem test_record_aUnknownD : decodeCapture .A [frame 0xedcba20, frame 0xedcba20] = (.eventProduced,
    some [(.model, .text Config.modelLabelA), (.id, .hexInteger 0x12345), (.cmd, .hexInteger 13), (.state, .text "unknown")]) :=
  rfl
theorem test_record_aUnknownE : decodeCapture .A [frame 0xedcba10, frame 0xedcba10] = (.eventProduced,
    some [(.model, .text Config.modelLabelA), (.id, .hexInteger 0x12345), (.cmd, .hexInteger 14), (.state, .text "unknown")]) :=
  rfl
theorem test_record_aUnknownF : decodeCapture .A [frame 0xedcba00, frame 0xedcba00] = (.eventProduced,
    some [(.model, .text Config.modelLabelA), (.id, .hexInteger 0x12345), (.cmd, .hexInteger 15), (.state, .text "unknown")]) :=
  rfl

/-! The records of 95_test_vectors.md section 5: Revision B, `id` = 0x12345. -/

theorem test_record_bUnknown0 : decodeCapture .B [frame 0x1234500, frame 0x1234500] = (.eventProduced,
    some [(.model, .text "Digoo-Security"), (.id, .hexInteger 0x12345), (.cmd, .hexInteger 0), (.state, .text "unknown")]) :=
  rfl
theorem test_record_bUnknown1 : decodeCapture .B [frame 0x1234510, frame 0x1234510] = (.eventProduced,
    some [(.model, .text "Digoo-Security"), (.id, .hexInteger 0x12345), (.cmd, .hexInteger 1), (.state, .text "unknown")]) :=
  rfl
theorem test_record_bUnknown2 : decodeCapture .B [frame 0x1234520, frame 0x1234520] = (.eventProduced,
    some [(.model, .text "Digoo-Security"), (.id, .hexInteger 0x12345), (.cmd, .hexInteger 2), (.state, .text "unknown")]) :=
  rfl
theorem test_record_bUnknown3 : decodeCapture .B [frame 0x1234530, frame 0x1234530] = (.eventProduced,
    some [(.model, .text "Digoo-Security"), (.id, .hexInteger 0x12345), (.cmd, .hexInteger 3), (.state, .text "unknown")]) :=
  rfl
theorem test_record_bUnknown4 : decodeCapture .B [frame 0x1234540, frame 0x1234540] = (.eventProduced,
    some [(.model, .text "Digoo-Security"), (.id, .hexInteger 0x12345), (.cmd, .hexInteger 4), (.state, .text "unknown")]) :=
  rfl
theorem test_record_bUnknown5 : decodeCapture .B [frame 0x1234550, frame 0x1234550] = (.eventProduced,
    some [(.model, .text "Digoo-Security"), (.id, .hexInteger 0x12345), (.cmd, .hexInteger 5), (.state, .text "unknown")]) :=
  rfl
theorem test_record_bClose : decodeCapture .B [frame 0x1234560, frame 0x1234560] = (.eventProduced,
    some [(.model, .text "Digoo-Security"), (.id, .hexInteger 0x12345), (.cmd, .hexInteger 6), (.opened, .integer 0), (.state, .text "close")]) :=
  rfl
theorem test_record_bSos : decodeCapture .B [frame 0x1234570, frame 0x1234570] = (.eventProduced,
    some [(.model, .text "Digoo-Security"), (.id, .hexInteger 0x12345), (.cmd, .hexInteger 7), (.sos, .integer 1), (.state, .text "sos")]) :=
  rfl
theorem test_record_bUnknown8 : decodeCapture .B [frame 0x1234580, frame 0x1234580] = (.eventProduced,
    some [(.model, .text "Digoo-Security"), (.id, .hexInteger 0x12345), (.cmd, .hexInteger 8), (.state, .text "unknown")]) :=
  rfl
theorem test_record_bOpen9 : decodeCapture .B [frame 0x1234590, frame 0x1234590] = (.eventProduced,
    some [(.model, .text "Digoo-Security"), (.id, .hexInteger 0x12345), (.cmd, .hexInteger 9), (.opened, .integer 1), (.state, .text "open")]) :=
  rfl
theorem test_record_bMotion : decodeCapture .B [frame 0x12345a0, frame 0x12345a0] = (.eventProduced,
    some [(.model, .text "Digoo-Security"), (.id, .hexInteger 0x12345), (.cmd, .hexInteger 10), (.motion, .integer 1), (.state, .text "motion")]) :=
  rfl
theorem test_record_bHome : decodeCapture .B [frame 0x12345b0, frame 0x12345b0] = (.eventProduced,
    some [(.model, .text "Digoo-Security"), (.id, .hexInteger 0x12345), (.cmd, .hexInteger 11), (.home, .integer 1), (.state, .text "home")]) :=
  rfl
theorem test_record_bOpenC : decodeCapture .B [frame 0x12345c0, frame 0x12345c0] = (.eventProduced,
    some [(.model, .text "Digoo-Security"), (.id, .hexInteger 0x12345), (.cmd, .hexInteger 12), (.opened, .integer 1), (.state, .text "open")]) :=
  rfl
theorem test_record_bUnlocked : decodeCapture .B [frame 0x12345d0, frame 0x12345d0] = (.eventProduced,
    some [(.model, .text "Digoo-Security"), (.id, .hexInteger 0x12345), (.cmd, .hexInteger 13), (.unlock, .integer 1), (.state, .text "unlocked")]) :=
  rfl
theorem test_record_bLocked : decodeCapture .B [frame 0x12345e0, frame 0x12345e0] = (.eventProduced,
    some [(.model, .text "Digoo-Security"), (.id, .hexInteger 0x12345), (.cmd, .hexInteger 14), (.lock, .integer 1), (.state, .text "locked")]) :=
  rfl
theorem test_record_bUnknownF : decodeCapture .B [frame 0x12345f0, frame 0x12345f0] = (.eventProduced,
    some [(.model, .text "Digoo-Security"), (.id, .hexInteger 0x12345), (.cmd, .hexInteger 15), (.state, .text "unknown")]) :=
  rfl
/-! Witnesses: for each statement with hypotheses, a state and operands that meet them together. -/

/-- B.MOTION 0x12345 as an instance of Revision B holds it at CLASSIFY (S1). -/
def regsB : CommandRegs := ⟨⟨0, 0x12, 0x34, 0x5a⟩, 0x12345, 0xa⟩

/-- A.MOTION 0x12345 as an instance of Revision A holds it at CLASSIFY. -/
def regsA : CommandRegs := ⟨⟨0, 0x12, 0x34, 0x55⟩, 0x12345, 0x5⟩

/-- The Captures of the two. -/
def capB : Capture := [frame 0x12345a0, frame 0x12345a0]
def capA : Capture := [frame 0xedcbaa0, frame 0xedcbaa0]

/-- A Capture with no Frame and no repeat; one with a repeat of 24 bits. -/
def capNone : Capture := [frame 0x12345a0]
def capShort : Capture := [lit 24 6 0x12345a, lit 24 6 0x12345a]

def classifiedB : ClassifiedRegs := ⟨regsB, some .motion, .motion, 1⟩

/-- Revision B in CLASSIFY, in EMIT, and in EMIT with the event on the port. -/
def inClassifyB : State := machineAt .B capB (.classify regsB)
def inEmitB : State := machineAt .B capB (.emit classifiedB)
def inEmitSentB : State :=
  { inEmitB with
    ev := some (eventPort .B 0x12345 0xa .motion .motion 1)
    sink := [eventRecord .B 0x12345 0xa .motion .motion 1] }

/-- Revision A before SANITY on a zero payload. -/
def beforeSanityZero : State := machineAt .A [frame 0, frame 0] (.loaded ⟨0, 0, 0, 0⟩)

theorem witness_StepRunsTheCommandAtHand : StageActs inClassifyB ∧ inClassifyB.stage = .classify regsB :=
  ⟨⟨rfl, rfl⟩, rfl⟩

theorem witness_LocatedFrameRunsItsCommand_A :
    StageActs (machineAt .A capA (.decode 0)) ∧ (machineAt .A capA (.decode 0)).stage = .decode 0 ∧
      capA[0]? = some (frame 0xedcbaa0) ∧ decodeRow .A (frame 0xedcbaa0) = .ok (.aMotion 0x12345) :=
  ⟨⟨rfl, rfl⟩, rfl, rfl, rfl⟩

theorem witness_LocatedFrameRunsItsCommand_B :
    StageActs (machineAt .B capB (.decode 0)) ∧ (machineAt .B capB (.decode 0)).stage = .decode 0 ∧
      capB[0]? = some (frame 0x12345a0) ∧ decodeRow .B (frame 0x12345a0) = .ok (.bMotion 0x12345) :=
  ⟨⟨rfl, rfl⟩, rfl, rfl, rfl⟩

/-- Each of the 32 rules, first clause: CLASSIFY with that revision and code. -/
theorem witness_CommandRule_write (rev : Rev) (code : BitVec 4) :
    (machineAt rev [] (.classify ⟨⟨0, 0, 0, 0⟩, 0x12345, code⟩)).rev = rev ∧
      (machineAt rev [] (.classify ⟨⟨0, 0, 0, 0⟩, 0x12345, code⟩)).stage =
        .classify ⟨⟨0, 0, 0, 0⟩, 0x12345, code⟩ := ⟨rfl, rfl⟩

/-- Each of the 16 rules of Revision B, third clause: the Capture that brings code `c` with `id` = 0x12345 to CLASSIFY. -/
theorem witness_CommandRule_capture_B : ∀ c : BitVec 4,
    CommandAt .B [frameOf .B (payloadOf 0x12345 c) false, frameOf .B (payloadOf 0x12345 c) false]
      ⟨⟨0, 0x12, 0x34, 0x5#4 ++ c⟩, 0x12345, c⟩ := fun c =>
  ⟨⟨0, 0x12, 0x34, 0x5#4 ++ c⟩, by revert c; unfold RawAt; decide, by simp, by revert c; decide⟩

/-- The same for Revision A, whose raw bytes are ed cb and a followed by the complement of the code. -/
theorem witness_CommandRule_capture_A : ∀ c : BitVec 4,
    CommandAt .A [frameOf .A (payloadOf 0x12345 c) false, frameOf .A (payloadOf 0x12345 c) false]
      ⟨⟨0, 0x12, 0x34, 0x5#4 ++ c⟩, 0x12345, c⟩ := fun c =>
  ⟨⟨0, 0xed, 0xcb, 0xa#4 ++ ~~~c⟩, by revert c; unfold RawAt; decide, by revert c; decide, by revert c; decide⟩

/-- R149's last clauses: both neighbours of the one pair that cannot reach it can. -/
theorem witness_RevisionAUnknownCommandsComplete :
    ¬ ((0xfffff : BitVec 20) = 0xfffff ∧ (0xe : BitVec 4) = 0xf) ∧
      ¬ ((0xffffe : BitVec 20) = 0xfffff ∧ (0xf : BitVec 4) = 0xf) := by decide

theorem witness_CommandsWriteOnlyTheirRegisters :
    exec (.bMotion 0x12345) inClassifyB = .next (machineAt .B capB (.classified classifiedB)) := rfl

theorem witness_CommandNotAtHandIsRefused :
    (∀ c, inClassifyB.stage = .classify c → Instr.ofCommand inClassifyB.rev c.id c.cmd ≠ .aMotion 0x12345) ∧
      ∀ c, State.reset.stage = .classify c → Instr.ofCommand State.reset.rev c.id c.cmd ≠ .aMotion 0x12345 := by
  constructor
  · rintro c ⟨⟩
    decide
  · rintro c ⟨⟩

theorem witness_CommandWritesItsTableEntry : inClassifyB.stage = .classify regsB := rfl

/-- The boundary of the exception of R99. -/
theorem witness_EncodedCommandDecodesBack :
    (Instr.aUnknownF 0xffffe).wellFormed = true ∧ (Instr.bUnknownF 0xfffff).wellFormed = true := by decide

theorem witness_DecodedRowIsTheEncoding : decodeRow .A (frame 0x0000010) = .ok (.aUnknownE 0xfffff) := rfl

theorem witness_DecoderRefusesByName :
    (lit 24 6 0x12345a).length ≠ 25 ∧ (frame 8).length = 25 ∧ ∀ k < 24, (frame 8)[k]? = some false := by decide

/-- The clauses meet at bit 25 of a 25-bit row and at row `nrows`. -/
theorem witness_MemReadPacksFirstBitMostSignificant :
    capB[1]? = some (frame 0x12345a0) ∧ 17 + 8 ≤ (frame 0x12345a0).length ∧ (frame 0x12345a0).length < 18 + 8 ∧
      nrows capB ≤ 2 := by decide

theorem witness_RowEqIsEqualityOfEveryBit :
    [frame 0x12345a0, frame 0x12345a8][0]? = some (frame 0x12345a0) ∧
      [frame 0x12345a0, frame 0x12345a8][1]? = some (frame 0x12345a8) := ⟨rfl, rfl⟩

/-- The least Frame behind a repeated 24-bit row: L10. -/
theorem witness_LocateTakesTheLeastFrame :
    let s := machineAt .A [lit 24 6 0x12345a, lit 24 6 0x12345a, frame 0x12345a0, frame 0x12345a0] .locate
    StageActs s ∧ s.stage = .locate ∧ FrameAt s.cap 2 ∧ ∀ q < 2, ¬ FrameAt s.cap q :=
  ⟨⟨rfl, rfl⟩, rfl, locateFrame_eq_some.1 rfl⟩

/-- For LocateAbortsWithoutAFrame, NonMatchExactlyWithoutAFrame and the second clause of LocateCauseSplitsTheFailures. -/
theorem witness_noFrame_noRepeat :
    let s := machineAt .A capNone .locate
    StageActs s ∧ s.stage = .locate ∧ (∀ r, ¬ FrameAt s.cap r) ∧ ¬ SomeRowRepeats s.cap :=
  ⟨⟨rfl, rfl⟩, rfl, locateFrame_eq_none.1 rfl, fun h => absurd (someRowRepeats_iff.2 h) (by decide)⟩

/-- For the same two and the first clause of LocateCauseSplitsTheFailures. -/
theorem witness_noFrame_repeat :
    let s := machineAt .B capShort .locate
    StageActs s ∧ s.stage = .locate ∧ (∀ r, ¬ FrameAt s.cap r) ∧ SomeRowRepeats s.cap :=
  ⟨⟨rfl, rfl⟩, rfl, locateFrame_eq_none.1 rfl, 0, lit 24 6 0x12345a, rfl, rfl⟩

/-- A row of exactly 24 bits, one of 23, and an absent row. -/
theorem witness_LoadReadsTheThreeBytes :
    let s := machineAt .A [lit 24 6 0x12345a, lit 23 6 0x12345a] (.decode 0)
    let t := machineAt .A [lit 24 6 0x12345a, lit 23 6 0x12345a] (.decode 1)
    let u := machineAt .A [] (.decode 0)
    (StageActs s ∧ s.stage = .decode 0 ∧ s.cap[0]? = some (lit 24 6 0x12345a) ∧ 24 ≤ (lit 24 6 0x12345a).length) ∧
      (StageActs t ∧ t.stage = .decode 1 ∧ ∀ row, t.cap[1]? = some row → row.length < 24) ∧
      (StageActs u ∧ u.stage = .decode 0 ∧ ∀ row, u.cap[0]? = some row → row.length < 24) := by
  refine ⟨⟨⟨rfl, rfl⟩, rfl, rfl, by decide⟩, ⟨⟨rfl, rfl⟩, rfl, ?_⟩, ⟨rfl, rfl⟩, rfl, ?_⟩
  · rintro row ⟨⟩
    decide
  · rintro row ⟨⟩

/-- Zero bytes, and a single one bit (P4). -/
theorem witness_SanityRefusesZeroRawBytes :
    (StageActs beforeSanityZero ∧ beforeSanityZero.rev = .A ∧ beforeSanityZero.stage = .loaded ⟨0, 0, 0, 0⟩) ∧
      let s := machineAt .A capA (.loaded ⟨0, 0, 0, 1⟩)
      StageActs s ∧ s.rev = .A ∧ s.stage = .loaded ⟨0, 0, 0, 1⟩ ∧ ¬ ((0 : Byte) = 0 ∧ (0 : Byte) = 0 ∧ (1 : Byte) = 0) :=
  ⟨⟨⟨rfl, rfl⟩, rfl, rfl⟩, ⟨rfl, rfl⟩, rfl, rfl, by decide⟩

theorem witness_InvertFlipsTheWorkingBytesOnly :
    let s := machineAt .A capA (.sane ⟨0, 0xed, 0xcb, 0xaa⟩)
    StageActs s ∧ s.rev = .A ∧ s.stage = .sane ⟨0, 0xed, 0xcb, 0xaa⟩ := ⟨⟨rfl, rfl⟩, rfl, rfl⟩

/-- PayloadDecoderIsDecodePayload: a row of exactly 24 bits at DECODE; loaded bytes with no DecodePayload; loaded bytes
with one, under either revision (P4: `id` = 0xfffff, `cmd` = 0xe in Revision A, 0x00000 and 0x1 in Revision B). -/
theorem witness_PayloadDecoderIsDecodePayload :
    (let s := machineAt .A [lit 24 6 0x12345a] (.decode 0);
      StageActs s ∧ s.stage = .decode 0 ∧ s.cap[0]? = some (lit 24 6 0x12345a) ∧ 24 ≤ (lit 24 6 0x12345a).length) ∧
    (StageActs beforeSanityZero ∧ beforeSanityZero.stage = .loaded ⟨0, 0, 0, 0⟩ ∧
      decodePayload beforeSanityZero.rev ((0 : Byte) ++ (0 : Byte) ++ (0 : Byte)) = none) ∧
    ∀ rev, StageActs (machineAt rev [] (.loaded ⟨0, 0, 0, 1⟩)) ∧
      (machineAt rev [] (.loaded ⟨0, 0, 0, 1⟩)).stage = .loaded ⟨0, 0, 0, 1⟩ ∧
      decodePayload rev ((0 : Byte) ++ (0 : Byte) ++ (1 : Byte)) =
        some (match rev with | .A => (0xfffff, 0xe) | .B => (0x00000, 0x1)) :=
  ⟨⟨⟨rfl, rfl⟩, rfl, rfl, by decide⟩, ⟨⟨rfl, rfl⟩, rfl, rfl⟩,
    fun rev => ⟨⟨rfl, rfl⟩, rfl, by cases rev <;> rfl⟩⟩

/-- For RevisionBTakesBytesAsCaptured, and the Revision B case of ExtractAssemblesIdAndCmd. -/
theorem witness_RevisionBTakesBytesAsCaptured :
    let s := machineAt .B capB (.loaded ⟨0, 0, 0, 0⟩)
    StageActs s ∧ s.rev = .B ∧ s.stage = .loaded ⟨0, 0, 0, 0⟩ := ⟨⟨rfl, rfl⟩, rfl, rfl⟩

/-- The Revision A case of ExtractAssemblesIdAndCmd. -/
theorem witness_ExtractAssemblesIdAndCmd :
    let s := machineAt .A capA (.inverted ⟨0, 0x12, 0x34, 0x55⟩)
    StageActs s ∧ s.stage = .inverted ⟨0, 0x12, 0x34, 0x55⟩ := ⟨⟨rfl, rfl⟩, rfl⟩

theorem witness_GuardAbortsWithoutLabel :
    let k : ClassifiedRegs := ⟨regsA, none, .absent, 0⟩
    let s := machineAt .A capA (.classified k)
    let t := machineAt .B capA (.classified k)
    let u := machineAt .A capA (.classified ⟨regsA, some .motion, .motion, 1⟩)
    (StageActs s ∧ s.stage = .classified k ∧ s.rev = .A ∧ k.label = none) ∧
      (StageActs t ∧ t.stage = .classified k ∧ t.rev = .B) ∧
      (StageActs u ∧ u.stage = .classified ⟨regsA, some .motion, .motion, 1⟩ ∧ some StateLabel.motion ≠ none) :=
  ⟨⟨⟨rfl, rfl⟩, rfl, rfl, rfl⟩, ⟨⟨rfl, rfl⟩, rfl, rfl⟩, ⟨rfl, rfl⟩, rfl, by decide⟩

/-- For EmitAssemblesTheRecord and EventPortIsRaisedOnceThenDone. -/
theorem witness_emit :
    StageActs inEmitB ∧ inEmitB.stage = .emit classifiedB ∧ inEmitB.ev = none ∧ classifiedB.label = some .motion :=
  ⟨⟨rfl, rfl⟩, rfl, rfl, rfl⟩

theorem witness_EventPortCarriesTheWholeRecord :
    eventPort .B 0x12345 0xa .motion .motion 1 = eventPort .B 0x12345 0xa .motion .motion 1 := rfl

theorem witness_classifiedAt : ClassifiedAt .B capB classifiedB :=
  ⟨⟨⟨0, 0x12, 0x34, 0x5a⟩, ⟨rfl, rfl, rfl, rfl⟩, by decide, rfl⟩, rfl, rfl, rfl⟩

theorem witness_coherent_inEmitB : Coherent inEmitB :=
  ⟨twoRows_wf rfl, witness_classifiedAt, by rintro e ⟨⟩, by rintro p ⟨⟩, by rintro ⟨⟩⟩

theorem witness_coherent_inEmitSentB : Coherent inEmitSentB := by
  refine ⟨twoRows_wf rfl, witness_classifiedAt, ?_, by rintro p ⟨⟩, by rintro ⟨⟩⟩
  rintro e ⟨⟩
  exact ⟨rfl, classifiedB, .motion, rfl, rfl, rfl, rfl⟩

theorem witness_coherent_beforeSanityZero : Coherent beforeSanityZero :=
  ⟨twoRows_wf rfl, ⟨rfl, rfl, rfl, rfl⟩, by rintro e ⟨⟩, by rintro p ⟨⟩, by rintro ⟨⟩⟩

/-- A success, with the record already with the sink. -/
theorem witness_ReturnReportsDecodeAndEndsInIdle :
    Coherent inEmitSentB ∧ step inEmitSentB = .next (endEmit inEmitSentB) ∧ inEmitSentB.result = none ∧
      (endEmit inEmitSentB).result = some ⟨.eventProduced, .ok, 1⟩ ∧ (endEmit inEmitSentB).rst = false :=
  ⟨witness_coherent_inEmitSentB, rfl, rfl, rfl, rfl⟩

/-- An abort. -/
theorem witness_ReturnReportsDecodeAndEndsInIdle_abort :
    Coherent beforeSanityZero ∧ step beforeSanityZero = .next (raiseAbort .sanityFailure beforeSanityZero) ∧
      beforeSanityZero.result = none ∧
      (raiseAbort .sanityFailure beforeSanityZero).result = some ⟨.sanityFailure, .failSanity, 0⟩ :=
  ⟨witness_coherent_beforeSanityZero, rfl, rfl, rfl⟩

theorem witness_AbortReturnsItsCauseAndNothingElse : beforeSanityZero.rst = false := rfl

/-- A reset inside the result handshake keeps the one result received (log 35). -/
theorem test_reset_in_handshake :
    step { endEmit inEmitSentB with rst := true } =
      .next { machineAt .B capB .idle with sink := inEmitSentB.sink, results := [⟨.eventProduced, .ok, 1⟩] } := rfl

theorem witness_ResetAbandonsTheInvocation : { inEmitSentB with rst := true }.rst = true := rfl

/-- A Capture offered, a structure of too many rows offered, nothing offered. -/
theorem witness_StartTakesTheOfferedCapture :
    (let s : State := { State.reset with offers := [capA] };
      StageActs s ∧ s.stage = .idle ∧ s.offers = capA :: [] ∧ Capture.wf capA = true) ∧
    (let s : State := { State.reset with offers := [List.replicate (Config.nrowsMax + 1) []] };
      StageActs s ∧ s.stage = .idle ∧ s.offers = List.replicate (Config.nrowsMax + 1) [] :: [] ∧
        Capture.wf (List.replicate (Config.nrowsMax + 1) []) = false) ∧
    (StageActs State.reset ∧ State.reset.stage = .idle ∧ State.reset.offers = []) :=
  ⟨⟨⟨rfl, rfl⟩, rfl, rfl, twoRows_wf rfl⟩, ⟨⟨rfl, rfl⟩, rfl, rfl, test_illFormed_tooManyRows⟩, ⟨rfl, rfl⟩, rfl, rfl⟩

theorem witness_EveryStepKeepsCoherent :
    Coherent inEmitSentB ∧ step inEmitSentB = .next (endEmit inEmitSentB) := ⟨witness_coherent_inEmitSentB, rfl⟩

/-- A coherent machine offered a structure that is no Capture. -/
theorem witness_CoherentMachineNeverFaults :
    let s : State := { State.reset with offers := [List.replicate (Config.nrowsMax + 1) []] }
    Coherent s ∧ step s = .refused .notACapture := by
  refine ⟨⟨test_wellFormed_emptyCapture, trivial, by rintro e ⟨⟩, by rintro p ⟨⟩, by rintro ⟨⟩⟩, ?_⟩
  simp [step, nextOperation, stageOperation, State.reset, State.resetOf, startOn, test_illFormed_tooManyRows]

/-- For InvocationComputesDecode and EachResultIsDecodeOfItsCapture. -/
theorem witness_invocation :
    let s : State := { State.reset with offers := [capA, capNone] }
    Quiet s ∧ s.offers = capA :: [capNone] ∧ ∀ c ∈ s.offers, Capture.wf c = true := by
  refine ⟨⟨rfl, rfl, rfl, rfl, rfl⟩, rfl, ?_⟩
  have h25 : (frame 0x12345a0).length = 25 := rfl
  have h25' : (frame 0xedcbaa0).length = 25 := rfl
  simp [capA, capNone, Capture.wf, Config.nrowsMax, Config.rowBitsMax, h25, h25']

theorem witness_EveryInvocationEnds : Coherent inEmitB ∧ StageActs inEmitB ∧ inEmitB.stage ≠ .idle :=
  ⟨witness_coherent_inEmitB, ⟨rfl, rfl⟩, by decide⟩

/-- For the last clauses of SanityFailureExactlyOnZeroPayload and for DiagnosticPulsesOnlyOnSanityFailure. -/
theorem witness_sanityFailure :
    (decodeCapture .A [frame 0, frame 0]).1 = .sanityFailure ∧
      step beforeSanityZero = .next (raiseAbort .sanityFailure beforeSanityZero) ∧ beforeSanityZero.result = none ∧
      beforeSanityZero.diagSanity = false ∧
      (raiseAbort .sanityFailure beforeSanityZero).result = some ⟨.sanityFailure, .failSanity, 0⟩ :=
  ⟨rfl, rfl, rfl, rfl, rfl⟩

/-- For CaptureIsOnlyRead, StrapIsNeverWritten, SequencerFollowsTheTransfers and HandshakesHandOverOnce: the step that
gives the sink a record, and the one that gives the dispatcher a result. -/
theorem witness_steps :
    step inEmitB = .next inEmitSentB ∧ inEmitB.rst = false ∧ inEmitB.stage ≠ .idle ∧
      step inEmitSentB = .next (endEmit inEmitSentB) ∧ inEmitSentB.result = none ∧
      (endEmit inEmitSentB).result = some ⟨.eventProduced, .ok, 1⟩ := ⟨rfl, rfl, by decide, rfl, rfl, rfl⟩

/-- HistoryIsNeverRead: a step that completes, one that faults, one that is refused. -/
theorem witness_HistoryIsNeverRead :
    step inEmitB = .next inEmitSentB ∧
      step (machineAt .A [] (.decode 0)) = .fault .noSuchPosition ∧
      step { State.reset with offers := [List.replicate (Config.nrowsMax + 1) []] } = .refused .notACapture :=
  ⟨rfl, rfl, witness_CoherentMachineNeverFaults.2⟩

theorem witness_RevisionsAreComplementary : CommandAt .A capA regsA :=
  ⟨⟨0, 0xed, 0xcb, 0xaa⟩, ⟨rfl, rfl, rfl, rfl⟩, by decide, rfl⟩

/-- Two instances, each of which steps. -/
theorem witness_InstancesDoNotInterfere :
    let sys : Instances := ⟨[inEmitB, machineAt .A capA .locate], []⟩
    (0 : Nat) ≠ 1 ∧ (∃ a, Instances.stepAt 0 sys = .next a) ∧ ∃ b, Instances.stepAt 1 sys = .next b :=
  ⟨by decide, ⟨_, rfl⟩, _, rfl⟩

end Sys2Proof.Tests
end

/-! The family of spec/10_state.md. -/
section
namespace Sys2Proof.Machine

/-- Settles O33: each row of the table of R32 is what `Ending.port` computes from the row's outcome. -/
theorem codeAndEventsFollowOutcome : Obligations.CodeAndEventsFollowOutcome := by
  unfold Obligations.CodeAndEventsFollowOutcome
  exact ⟨rfl, rfl, rfl, rfl, rfl⟩

end Sys2Proof.Machine
end

/-! The family of spec/20_memory.md. -/
section
namespace Sys2Proof.Machine

/-- What the block is given and has no write path to stands as it was: the strap, the Capture on the read port and the
Captures still to be offered (R28, R53, R204). -/
def SameInputs (s t : State) : Prop := t.rev = s.rev ∧ t.cap = s.cap ∧ t.offers = s.offers

theorem locate_sameInputs (s : State) : SameInputs s (locate s) := by
  obtain ⟨r, -, h⟩ | ⟨-, h⟩ := locate_cases s
  · simp [h, SameInputs]
  · simp [h, SameInputs]

theorem load_sameInputs {r : Nat} {s t : State} (h : load r s = .next t) : SameInputs s t := by
  obtain ⟨b0, b1, b2, -, -, -, rfl⟩ := load_next.1 h
  exact ⟨rfl, rfl, rfl⟩

theorem sanity_sameInputs (p : PayloadRegs) (s : State) : SameInputs s (sanity p s) := by
  obtain ⟨-, h⟩ | ⟨-, h⟩ := sanity_cases p s
  · simp [h, SameInputs]
  · simp [h, SameInputs]

theorem exec_sameInputs {i : Instr} {s t : State} (h : exec i s = .next t) : SameInputs s t := by
  obtain ⟨c, l, f, v, -, -, rfl⟩ := exec_next h
  exact ⟨rfl, rfl, rfl⟩

theorem guardLabel_sameInputs (k : ClassifiedRegs) (s : State) : SameInputs s (guardLabel k s) := by
  obtain ⟨-, -, h⟩ | ⟨-, h⟩ := guardLabel_cases k s
  · simp [h, SameInputs]
  · simp [h, SameInputs]

theorem emitEvent_sameInputs {k : ClassifiedRegs} {s t : State} (h : emitEvent k s = .next t) : SameInputs s t := by
  obtain ⟨l, -, rfl⟩ := emitEvent_next.1 h
  exact ⟨rfl, rfl, rfl⟩

/-- START is the one operation that touches the inputs of the block (R195). -/
theorem step_sameInputs_or_start {s t : State} (h : step s = .next t) :
    SameInputs s t ∨ s.stage = .idle ∧ ∃ c rest, s.offers = c :: rest ∧ startOn c rest s = .next t := by
  obtain ⟨-, rfl⟩ | ⟨-, -, rfl⟩ | ⟨-, -, hstage⟩ := step_cases h
  · exact .inl ⟨rfl, rfl, rfl⟩
  · exact .inl ⟨rfl, rfl, rfl⟩
  obtain ⟨-, -, rfl⟩ | ⟨c, rest, hidle, hoffers, hstart⟩ | ⟨-, rfl⟩ | ⟨r, -, hload⟩ | ⟨p, -, -, rfl⟩ | ⟨p, -, -, rfl⟩ |
    ⟨p, -, rfl⟩ | ⟨c, -, hexec⟩ | ⟨k, -, rfl⟩ | ⟨k, -, -, hemit⟩ | ⟨k, -, -, rfl⟩ := hstage
  · exact .inl ⟨rfl, rfl, rfl⟩
  · exact .inr ⟨hidle, c, rest, hoffers, hstart⟩
  · exact .inl (locate_sameInputs s)
  · exact .inl (load_sameInputs hload)
  · exact .inl (sanity_sameInputs p s)
  · exact .inl ⟨rfl, rfl, rfl⟩
  · exact .inl ⟨rfl, rfl, rfl⟩
  · exact .inl (exec_sameInputs hexec)
  · exact .inl (guardLabel_sameInputs k s)
  · exact .inl (emitEvent_sameInputs hemit)
  · exact .inl ⟨rfl, rfl, rfl⟩

theorem step_cap_of_not_idle {s t : State} (h : step s = .next t) (hs : s.stage ≠ .idle) : t.cap = s.cap := by
  obtain ⟨-, hcap, -⟩ | ⟨hidle, -⟩ := step_sameInputs_or_start h
  · exact hcap
  · exact absurd hidle hs

/-- Settles O47: the inversion lemma of the step, read through what each operation does to the inputs, leaves START as
the only one that changes the Capture. -/
theorem captureIsOnlyRead : Obligations.CaptureIsOnlyRead := by
  unfold Obligations.CaptureIsOnlyRead
  refine ⟨fun s t h => ?_, fun s t h hs r i => ?_, fun p s => rfl⟩
  · obtain ⟨-, hcap, -⟩ | ⟨hidle, c, rest, hoffers, hstart⟩ := step_sameInputs_or_start h
    · exact .inl hcap
    · obtain ⟨-, rfl⟩ := startOn_next.1 hstart
      exact .inr ⟨hidle, c, rest, hoffers, rfl, rfl⟩
  · rw [step_cap_of_not_idle h hs]

end Sys2Proof.Machine
end


/-! The family of spec/40_frame_locator.md. -/
section
namespace Sys2Proof.Machine

/-- No working register holds a value before LOCATE has written `r` (R24, R25). -/
@[simp] theorem Stage.r?_locate : Stage.r? .locate = none := rfl

/-- The locator acts in the one step in which `pc` is LOCATE (R110). -/
theorem step_of_locate {s : State} (hacts : StageActs s) (hs : s.stage = .locate) : step s = .next (locate s) := by
  obtain ⟨hrst, hres⟩ := hacts
  simp [step, nextOperation_of_acts hrst hres, stageOperation, hs]

/-- While `done` is high and no reset arrives, the step is the end of the result handshake (R199). -/
theorem step_of_result {s : State} {p : ResultPort} (hrst : s.rst = false) (hres : s.result = some p) :
    step s = .next (finishReturn s) := by
  simp [step, nextOperation, hrst, hres]

theorem locate_of_noFrame {s : State} (h : ∀ r, ¬ FrameAt s.cap r) :
    locate s = raiseAbort (locateCause s.cap) s := by
  obtain ⟨r, hsome, -⟩ | ⟨-, habort⟩ := locate_cases s
  · exact absurd (locateFrame_eq_some.1 hsome).1 (h r)
  · exact habort

/-- Both causes of the locator's abort go out with the code ABORT_LENGTH and no event (R32, R113). -/
theorem locateCause_port (cap : Capture) : (locateCause cap).port = ⟨locateCause cap, .abortLength, 0⟩ := by
  unfold locateCause
  split
  · rfl
  · rfl

/-- The abort of R113 is one step, and the step after it ends the result handshake (R199, R228). -/
theorem step_of_noFrame {s : State} (hacts : StageActs s) (hs : s.stage = .locate) (h : ∀ r, ¬ FrameAt s.cap r) :
    step s = .next (raiseAbort (locateCause s.cap) s) ∧
      step (raiseAbort (locateCause s.cap) s) = .next (finishReturn (raiseAbort (locateCause s.cap) s)) :=
  ⟨by rw [step_of_locate hacts hs, locate_of_noFrame h], step_of_result hacts.1 (raiseAbort_result _ s)⟩

/-- Settles O19: the two states are those of `step_of_noFrame`, and their fields are what `raiseAbort` and `finishReturn`
write; `pc` stays in LOCATE until the handshake is over. -/
theorem locateAbortsWithoutAFrame : Obligations.LocateAbortsWithoutAFrame := by
  unfold Obligations.LocateAbortsWithoutAFrame
  intro s hacts hs hnone
  obtain ⟨habort, hreturn⟩ := step_of_noFrame hacts hs hnone
  have hpc : raiseAbort (locateCause s.cap) s = { raiseAbort (locateCause s.cap) s with stage := .locate } := by
    rw [← hs]
    rfl
  refine ⟨locateCause s.cap, _, _, habort, hpc, ?_, ?_, ?_, ?_, hreturn, ?_, ?_, ?_⟩
  all_goals simp [locateCause_port, hs]

end Sys2Proof.Machine
end


/-! The family of spec/41_payload_decoder.md. -/
section
namespace Sys2Proof.Machine

/-- INVERT is the step at `sane` under Revision A only (R127, R128). -/
theorem step_of_sane {s : State} {p : PayloadRegs} (hacts : StageActs s) (hrev : s.rev = .A) (hs : s.stage = .sane p) :
    step s = .next (invert p s) := by
  obtain ⟨hrst, hres⟩ := hacts
  simp [step, nextOperation_of_acts hrst hres, stageOperation, hs, hrev]

/-- EXTRACT is the step on inverted bytes, and in Revision B on the bytes as LOAD leaves them (R128, R129). -/
theorem step_of_extract {s : State} {p : PayloadRegs} (hacts : StageActs s)
    (hs : s.stage = .inverted p ∨ s.rev = .B ∧ s.stage = .loaded p) : step s = .next (extract p s) := by
  have hop : stageOperation s = .extract p := by
    obtain hs | ⟨hrev, hs⟩ := hs
    · simp [stageOperation, hs]
    · simp [stageOperation, hs, hrev]
  simp [step, nextOperation_of_acts hacts.1 hacts.2, hop]

/-- The three terms of R129 occupy disjoint bits: `id` has the upper half of `b2` in bits 3 to 0, `b1` in bits 11 to 4
and `b0` in bits 19 to 12. -/
theorem extractId_eq_append (b0 b1 b2 : Byte) : extractId b0 b1 b2 = b0 ++ b1 ++ b2.extractLsb' 4 4 := by
  apply BitVec.eq_of_getLsbD_eq
  intro i hi
  simp only [extractId, BitVec.getLsbD_or, BitVec.getLsbD_shiftLeft, BitVec.getLsbD_setWidth,
    BitVec.getLsbD_ushiftRight, BitVec.getLsbD_append, BitVec.getLsbD_extractLsb']
  by_cases h4 : i < 4
  · simp [h4, hi, show i < 12 by omega]
  have hb2 : b2.getLsbD (4 + i) = false := BitVec.getLsbD_of_ge b2 _ (by omega)
  by_cases h12 : i < 12
  · simp [h4, hi, h12, hb2, show i - 4 < 8 by omega, show i - 4 < 20 by omega]
  · have hb1 : b1.getLsbD (i - 4) = false := BitVec.getLsbD_of_ge b1 _ (by omega)
    simp [h4, hi, h12, hb2, hb1, show ¬ i - 4 < 8 by omega, show i - 12 < 20 by omega, Nat.sub_sub]

/-- The mask of R130 keeps the lower half of `b2`. -/
theorem extractCmd_eq_low (b2 : Byte) : extractCmd b2 = b2.extractLsb' 0 4 := by
  have hmask : b2.toNat &&& 15 = b2.toNat % 16 := Nat.and_two_pow_sub_one_eq_mod b2.toNat 4
  apply BitVec.eq_of_toNat_eq
  simp only [extractCmd, BitVec.toNat_setWidth, BitVec.toNat_and, BitVec.extractLsb'_toNat, BitVec.toNat_ofNat,
    Nat.shiftRight_zero, Nat.reducePow, Nat.reduceMod, hmask, Nat.mod_mod]

/-- Every 20-bit value is the `id` of its own bits, taken as 8, 8 and 4 (R129). -/
theorem extractId_surjective (v : BitVec 20) : ∃ b0 b1 b2 : Byte, extractId b0 b1 b2 = v := by
  have hhigh : (v.extractLsb' 0 4 ++ 0#4).extractLsb' 4 4 = v.extractLsb' 0 4 := BitVec.extractLsb'_append_eq_left
  refine ⟨v.extractLsb' 12 8, v.extractLsb' 4 8, v.extractLsb' 0 4 ++ 0#4, ?_⟩
  calc extractId _ _ _ = v.extractLsb' 12 8 ++ v.extractLsb' 4 8 ++ v.extractLsb' 0 4 := by
        rw [extractId_eq_append, hhigh]
    _ = v.extractLsb' 0 20 := by
        rw [BitVec.extractLsb'_append_extractLsb'_eq_extractLsb' (show 12 = 4 + 8 from rfl),
          BitVec.extractLsb'_append_extractLsb'_eq_extractLsb' (show 4 = 0 + 4 from rfl)]
    _ = v := BitVec.extractLsb'_eq_self

/-- Settles O26: the step is `extract`, whose formulas place the three bytes side by side in `id`. -/
theorem extractAssemblesIdAndCmd : Obligations.ExtractAssemblesIdAndCmd := by
  unfold Obligations.ExtractAssemblesIdAndCmd
  exact ⟨fun s p hacts hs => step_of_extract hacts hs,
    fun b0 b1 b2 => ⟨extractId_eq_append b0 b1 b2, extractCmd_eq_low b2⟩, extractId_surjective, by decide, by decide⟩

/-- Settles O24: the step is `invert`, which writes the three bytes and nothing else. -/
theorem invertFlipsTheWorkingBytesOnly : Obligations.InvertFlipsTheWorkingBytesOnly := by
  unfold Obligations.InvertFlipsTheWorkingBytesOnly
  exact ⟨fun s p hacts hrev hs => step_of_sane hacts hrev hs, by decide⟩

end Sys2Proof.Machine
end


/-! The family of spec/42_classifier_rev_a.md. -/
section
namespace Sys2Proof.Machine

/-- The record of `Decode` carries the `id` and `cmd` of CLASSIFY and the Command Table's entry at `cmd` (R140, R196). -/
theorem decodeCapture_of_commandAt {rev : Rev} {cap : Capture} {c : CommandRegs} (h : CommandAt rev cap c) :
    decodeCapture rev cap = (.eventProduced, some (tableRecord rev c.id c.cmd)) := by
  obtain ⟨p, hraw, hnonzero, rfl⟩ := h
  have hsane : ¬ (rev = .A ∧ allZero p.b0 p.b1 p.b2) := by
    rintro ⟨hrev, hzero⟩
    simp [hnonzero hrev] at hzero
  simp [decodeCapture_of_rawAt hraw, decodeLoaded, hsane, commandRegsOf]

/-- A rule holds in full where its command is the shared write with the values of its entry in the Command Table: the
record of `Decode` is made from that entry, so its field and state string are those of the written values (R30, R183). -/
theorem commandRule_of_entry {rev : Rev} {code : BitVec 4} {make : BitVec 20 → Instr} {label : StateLabel}
    {fsel : FieldSel} {fval : BitVec 2} {x0 x1 x2 : Byte}
    (hexec : ∀ id s, exec (make id) s = classifyAs rev code id label fsel fval s)
    (hentry : entryLabel (tableEntry rev code) = label ∧ entryFsel (tableEntry rev code) = fsel ∧
      entryFval (tableEntry rev code) = fval)
    (hexample : decodeBytes rev x0 x1 x2 = .ok (make 0x12345#20)) :
    CommandRule rev code make label label.number fsel fsel.number fval (condField fsel fval) label.text x0 x1 x2 := by
  obtain ⟨hlabel, hfsel, hfval⟩ := hentry
  refine ⟨fun s c hrev hstage hcmd => ?_, ⟨rfl, rfl⟩, fun cap c hat hcmd => ?_, hexample⟩
  · rw [hexec, ← hrev, ← hcmd, classifyAs_atHand hstage]
  · rw [decodeCapture_of_commandAt hat, tableRecord, hcmd, hlabel, hfsel, hfval, eventRecord]

/-- Settles O3: each of the four commands is the shared write with the values of its entry in Command Table A. -/
theorem revisionASensorCommandsComplete : Obligations.RevisionASensorCommandsComplete := by
  unfold Obligations.RevisionASensorCommandsComplete
  exact ⟨commandRule_of_entry exec_aMotion ⟨rfl, rfl, rfl⟩ rfl, commandRule_of_entry exec_aOpen6 ⟨rfl, rfl, rfl⟩ rfl,
    commandRule_of_entry exec_aOpen3 ⟨rfl, rfl, rfl⟩ rfl, commandRule_of_entry exec_aClose ⟨rfl, rfl, rfl⟩ rfl⟩

/-- Settles O4: as O3, the button string being the one `fval` selects. -/
theorem revisionAButtonCommandsComplete : Obligations.RevisionAButtonCommandsComplete := by
  unfold Obligations.RevisionAButtonCommandsComplete
  exact ⟨commandRule_of_entry exec_aLocked ⟨rfl, rfl, rfl⟩ rfl, commandRule_of_entry exec_aUnlocked ⟨rfl, rfl, rfl⟩ rfl,
    commandRule_of_entry exec_aHome ⟨rfl, rfl, rfl⟩ rfl, commandRule_of_entry exec_aSos ⟨rfl, rfl, rfl⟩ rfl⟩

/-- EXTRACT only cuts the 24 bits of the three bytes anew, 20 and 4 (R84, R85). -/
theorem payloadOf_extract (b0 b1 b2 : Byte) :
    payloadOf (extractId b0 b1 b2) (extractCmd b2) = b0 ++ b1 ++ b2 := by
  have hb2 : b2.extractLsb' 4 4 ++ b2.extractLsb' 0 4 = b2 := by
    rw [BitVec.extractLsb'_append_extractLsb'_eq_extractLsb' (show 4 = 0 + 4 from rfl), BitVec.extractLsb'_eq_self]
  rw [payloadOf, extractId_eq_append, extractCmd_eq_low, BitVec.append_assoc, BitVec.cast_eq, hb2]

/-- Every pair of an `id` and a `cmd` is extracted from some three bytes (R85). -/
theorem extract_surjective (id : BitVec 20) (cmd : BitVec 4) :
    ∃ b0 b1 b2 : Byte, extractId b0 b1 b2 = id ∧ extractCmd b2 = cmd := by
  obtain ⟨b0, b1, b2, rfl⟩ := extractId_surjective id
  refine ⟨b0, b1, b2.extractLsb' 4 4 ++ cmd, ?_, ?_⟩
  · rw [extractId_eq_append, extractId_eq_append, BitVec.extractLsb'_append_eq_left]
  · rw [extractCmd_eq_low, BitVec.extractLsb'_append_eq_right]

theorem bitVec_append_inj {m n : Nat} {x y : BitVec m} {v w : BitVec n} (h : x ++ v = y ++ w) : x = y ∧ v = w := by
  constructor
  · rw [← BitVec.extractLsb'_append_eq_left (a := x) (b := v), h, BitVec.extractLsb'_append_eq_left]
  · rw [← BitVec.extractLsb'_append_eq_right (a := x) (b := v), h, BitVec.extractLsb'_append_eq_right]

/-- The one pair that Revision A would extract from three zero raw bytes, and from no others (R97, R149). -/
theorem extract_inverted_eq_iff (b0 b1 b2 : Byte) :
    (extractId (invertByte b0) (invertByte b1) (invertByte b2) = 0xfffff ∧ extractCmd (invertByte b2) = 0xf) ↔
      allZero b0 b1 b2 = true := by
  have hbyte (b : Byte) (h : invertByte b = 0xff) : b = 0 := by
    rw [← invertByte_invertByte b, h]
    rfl
  constructor
  · rintro ⟨hid, hcmd⟩
    have happend :
        invertByte b0 ++ invertByte b1 ++ invertByte b2 = (0xff : Byte) ++ (0xff : Byte) ++ (0xff : Byte) := by
      rw [← payloadOf_extract, hid, hcmd]
      rfl
    obtain ⟨h01, h2⟩ := bitVec_append_inj happend
    obtain ⟨h0, h1⟩ := bitVec_append_inj h01
    simp [allZero, hbyte _ h0, hbyte _ h1, hbyte _ h2]
  · intro h
    obtain ⟨⟨rfl, rfl⟩, rfl⟩ : (b0 = 0 ∧ b1 = 0) ∧ b2 = 0 := by simpa [allZero] using h
    decide

/-- Three bytes and the sync bit, sent twice, give LOCATE row 0 and LOAD the three bytes (R81, R111). -/
theorem rawAt_twoRows {row : Row} {b0 b1 b2 : Byte} {sync : Bool}
    (hrow : row = unpackBits b0 ++ (unpackBits b1 ++ (unpackBits b2 ++ [sync]))) :
    RawAt [row, row] ⟨0, b0, b1, b2⟩ := by
  have hlength : row.length = 25 := by simp [hrow]
  have hlocate : locateFrame [row, row] = some 0 :=
    locateFrame_eq_some.2 ⟨⟨row, rfl, rfl, hlength⟩, fun q hq => absurd hq (Nat.not_lt_zero q)⟩
  obtain ⟨row', heq, -, h0, h1, h2⟩ := memRead_of_located hlocate
  obtain rfl : row = row' := by simpa using heq
  obtain ⟨hcut0, hcut1, hcut2⟩ := cut_bytes b0 b1 b2 [sync]
  rw [← hrow] at hcut0 hcut1 hcut2
  exact ⟨hlocate, by simpa [hcut0] using h0, by simpa [hcut1] using h1, by simpa [hcut2] using h2⟩

/-- What Revision A holds at CLASSIFY is extracted from the inverted bytes of a payload that is not all zero, so it is not
the pair of R149. -/
theorem commandAt_A_ne {cap : Capture} {c : CommandRegs} (h : CommandAt .A cap c) :
    ¬ (c.id = 0xfffff ∧ c.cmd = 0xf) := by
  obtain ⟨p, -, hnonzero, rfl⟩ := h
  intro hpair
  have hzero := (extract_inverted_eq_iff p.b0 p.b1 p.b2).1 hpair
  simp [hnonzero rfl] at hzero

/-- Any other pair is brought to CLASSIFY by the Capture of its inverted bytes, sent twice. -/
theorem commandAt_A_exists {id : BitVec 20} {cmd : BitVec 4} (h : ¬ (id = 0xfffff ∧ cmd = 0xf)) :
    ∃ cap c, Capture.wf cap = true ∧ CommandAt .A cap c ∧ c.id = id ∧ c.cmd = cmd := by
  obtain ⟨b0, b1, b2, rfl, rfl⟩ := extract_surjective id cmd
  have hnonzero : allZero (invertByte b0) (invertByte b1) (invertByte b2) = false := by
    rw [Bool.eq_false_iff, Ne, ← extract_inverted_eq_iff]
    simpa using h
  have hraw := rawAt_twoRows (b0 := invertByte b0) (b1 := invertByte b1) (b2 := invertByte b2) (sync := false) rfl
  exact ⟨_, _, twoRows_wf (by simp), ⟨_, hraw, fun _ => hnonzero, rfl⟩, by simp [commandRegsOf, polarity],
    by simp [commandRegsOf, polarity]⟩

/-- Settles O5: the eight codes are the shared write with the entry 0x00; the pair that reaches no rule is the one that
three zero raw bytes would carry, which SANITY refuses. -/
theorem revisionAUnknownCommandsComplete : Obligations.RevisionAUnknownCommandsComplete := by
  unfold Obligations.RevisionAUnknownCommandsComplete
  exact ⟨commandRule_of_entry exec_aUnknown0 ⟨rfl, rfl, rfl⟩ rfl, commandRule_of_entry exec_aUnknown7 ⟨rfl, rfl, rfl⟩ rfl,
    commandRule_of_entry exec_aUnknownA ⟨rfl, rfl, rfl⟩ rfl, commandRule_of_entry exec_aUnknownB ⟨rfl, rfl, rfl⟩ rfl,
    commandRule_of_entry exec_aUnknownC ⟨rfl, rfl, rfl⟩ rfl, commandRule_of_entry exec_aUnknownD ⟨rfl, rfl, rfl⟩ rfl,
    commandRule_of_entry exec_aUnknownE ⟨rfl, rfl, rfl⟩ rfl, commandRule_of_entry exec_aUnknownF ⟨rfl, rfl, rfl⟩ rfl,
    fun _ _ => commandAt_A_ne, fun _ _ => commandAt_A_exists⟩

end Sys2Proof.Machine
end


/-! The family of spec/43_classifier_rev_b.md. -/
section
namespace Sys2Proof.Machine

/-- Settles O6: each of the four commands is the shared write with the values of its entry in Command Table B; the field
of B.CLOSE is `opened` with `fval` 0, so its record holds it with the value 0 (R164). -/
theorem revisionBSensorCommandsComplete : Obligations.RevisionBSensorCommandsComplete := by
  unfold Obligations.RevisionBSensorCommandsComplete
  exact ⟨commandRule_of_entry exec_bMotion ⟨rfl, rfl, rfl⟩ rfl, commandRule_of_entry exec_bOpen9 ⟨rfl, rfl, rfl⟩ rfl,
    commandRule_of_entry exec_bOpenC ⟨rfl, rfl, rfl⟩ rfl, commandRule_of_entry exec_bClose ⟨rfl, rfl, rfl⟩ rfl⟩

/-- Settles O7: as O6, each button having a field of its own with the integer 1. -/
theorem revisionBButtonCommandsComplete : Obligations.RevisionBButtonCommandsComplete := by
  unfold Obligations.RevisionBButtonCommandsComplete
  exact ⟨commandRule_of_entry exec_bLocked ⟨rfl, rfl, rfl⟩ rfl, commandRule_of_entry exec_bUnlocked ⟨rfl, rfl, rfl⟩ rfl,
    commandRule_of_entry exec_bHome ⟨rfl, rfl, rfl⟩ rfl, commandRule_of_entry exec_bSos ⟨rfl, rfl, rfl⟩ rfl⟩

/-- Settles O8: the eight codes are the shared write with the entry 0x00; without a sanity check, three zero bytes are
extracted as they are, to `id` and `cmd` 0. -/
theorem revisionBUnknownCommandsComplete : Obligations.RevisionBUnknownCommandsComplete := by
  unfold Obligations.RevisionBUnknownCommandsComplete
  exact ⟨commandRule_of_entry exec_bUnknown0 ⟨rfl, rfl, rfl⟩ rfl, commandRule_of_entry exec_bUnknown1 ⟨rfl, rfl, rfl⟩ rfl,
    commandRule_of_entry exec_bUnknown2 ⟨rfl, rfl, rfl⟩ rfl, commandRule_of_entry exec_bUnknown3 ⟨rfl, rfl, rfl⟩ rfl,
    commandRule_of_entry exec_bUnknown4 ⟨rfl, rfl, rfl⟩ rfl, commandRule_of_entry exec_bUnknown5 ⟨rfl, rfl, rfl⟩ rfl,
    commandRule_of_entry exec_bUnknown8 ⟨rfl, rfl, rfl⟩ rfl, commandRule_of_entry exec_bUnknownF ⟨rfl, rfl, rfl⟩ rfl,
    rfl⟩

end Sys2Proof.Machine
end


/-! The family of spec/44_event_emitter.md. -/
section
namespace Sys2Proof.Machine

/-- In EMIT with `ev_valid` low the step is the assembly and the hand-over (R181, R186). -/
theorem step_of_emit {s : State} {k : ClassifiedRegs} (hacts : StageActs s) (hs : s.stage = .emit k)
    (hev : s.ev = none) : step s = emitEvent k s := by
  obtain ⟨hrst, hres⟩ := hacts
  simp [step, nextOperation_of_acts hrst hres, stageOperation, hs, hev]

/-- In EMIT with `ev_valid` high the step lowers it and returns (R186, R199). -/
theorem step_of_eventValid {s : State} {k : ClassifiedRegs} {e : EventPort} (hacts : StageActs s)
    (hs : s.stage = .emit k) (hev : s.ev = some e) : step s = .next (endEmit s) := by
  obtain ⟨hrst, hres⟩ := hacts
  simp [step, nextOperation_of_acts hrst hres, stageOperation, hs, hev]

/-- Settles O30: the first step is `emitEvent`, whose record is the one of the statement and which leaves `stage` and
`results`; as it raises `ev_valid`, the second is `endEmit`, which gives the sink nothing more. -/
theorem emitAssemblesTheRecord : Obligations.EmitAssemblesTheRecord := by
  unfold Obligations.EmitAssemblesTheRecord
  intro s k l hacts hs hev hlabel
  have hfirst := (step_of_emit hacts hs hev).trans (emitEvent_next.2 ⟨l, hlabel, rfl⟩)
  exact ⟨_, _, hfirst, step_of_eventValid hacts hs rfl, rfl, rfl, rfl, endEmit_sink _, endEmit_results _⟩

end Sys2Proof.Machine
end


/-! The family of spec/45_invocation.md. -/
section
namespace Sys2Proof.Machine

/-! What `Decode` answers where the block aborts, and what the sink rebuilds from the port. -/

/-- Without a Frame `Decode` is the abort of the locator (R114, R196). -/
theorem decodeCapture_of_notLocated {rev : Rev} {cap : Capture} (h : locateFrame cap = none) :
    decodeCapture rev cap = (locateCause cap, none) := by
  simp [decodeCapture, h]

/-- Three zero raw bytes make `Decode` a sanity failure in Revision A (R126, R196). -/
theorem decodeCapture_of_zero {cap : Capture} {p : PayloadRegs} (hraw : RawAt cap p)
    (hzero : allZero p.b0 p.b1 p.b2 = true) : decodeCapture .A cap = (.sanityFailure, none) := by
  simp [decodeCapture_of_rawAt hraw, decodeLoaded, hzero]

theorem locateCause_ne_eventProduced (cap : Capture) : locateCause cap ≠ .eventProduced := by
  unfold locateCause
  split
  · decide
  · decide

@[simp] theorem revOfBit_revBit (rev : Rev) : revOfBit (revBit rev) = rev := by cases rev <;> rfl

@[simp] theorem StateLabel.ofNumber_number (l : StateLabel) : StateLabel.ofNumber l.number = l := by cases l <;> rfl

@[simp] theorem FieldSel.ofNumber_number (f : FieldSel) : FieldSel.ofNumber f.number = f := by cases f <;> rfl

/-- The record the sink takes is the one rebuilt from the port (R184). -/
@[simp] theorem recordOfPort_eventPort (rev : Rev) (id : BitVec 20) (cmd : BitVec 4) (l : StateLabel) (f : FieldSel)
    (v : BitVec 2) : recordOfPort (eventPort rev id cmd l f v) = eventRecord rev id cmd l f v := by
  simp [recordOfPort, eventPort]

/-- Every entry of a Command Table has a label (R29), so the registers that hold one have it. -/
theorem ClassifiedAt.exists_label {rev : Rev} {cap : Capture} {k : ClassifiedRegs} (h : ClassifiedAt rev cap k) :
    ∃ l, k.label = some l := by
  obtain ⟨-, hlabel, -⟩ := h
  exact ⟨_, hlabel⟩

/-- Once classified, the registers hold the fields of the record of `Decode` (R140, R160, R181). -/
theorem decodeCapture_of_classifiedAt {rev : Rev} {cap : Capture} {k : ClassifiedRegs} {l : StateLabel}
    (h : ClassifiedAt rev cap k) (hl : k.label = some l) :
    decodeCapture rev cap =
      (.eventProduced, some (eventRecord rev k.command.id k.command.cmd l k.fsel k.fval)) := by
  obtain ⟨hat, hlabel, hfsel, hfval⟩ := h
  obtain rfl : l = entryLabel (tableEntry rev k.command.cmd) := Option.some.inj (hl.symm.trans hlabel)
  rw [decodeCapture_of_commandAt hat, tableRecord, hfsel, hfval]

/-! The step that raises `done`. -/

/-- A coherent machine raises `done` in two ways: by an abort that `Decode` names, or at the end of EMIT (R199, R227). The
guard is not one of them, as every table entry has a label (R29, R150). -/
theorem step_raises_done {s t : State} {p : ResultPort} (hco : Coherent s) (hstep : step s = .next t)
    (hlow : s.result = none) (hhigh : t.result = some p) :
    (∃ cause, cause ≠ .eventProduced ∧ decodeCapture s.rev s.cap = (cause, none) ∧ t = raiseAbort cause s) ∨
    (∃ k e, s.stage = .emit k ∧ s.ev = some e ∧ t = endEmit s) := by
  obtain ⟨-, hfits, -, -, -⟩ := hco
  obtain ⟨-, rfl⟩ | ⟨-, -, rfl⟩ | ⟨-, -, hstage⟩ := step_cases hstep
  · simp at hhigh
  · simp at hhigh
  obtain ⟨-, -, rfl⟩ | ⟨c, rest, -, -, hstart⟩ | ⟨-, rfl⟩ | ⟨r, -, hload⟩ | ⟨p, hp, hrev, rfl⟩ | ⟨p, -, -, rfl⟩ |
    ⟨p, -, rfl⟩ | ⟨c, -, hexec⟩ | ⟨k, hk, rfl⟩ | ⟨k, -, -, hemit⟩ | ⟨k, hk, hev, rfl⟩ := hstage
  · simp [hlow] at hhigh
  · obtain ⟨-, rfl⟩ := startOn_next.1 hstart
    simp [hlow] at hhigh
  · obtain ⟨r, -, hlocate⟩ | ⟨hnone, habort⟩ := locate_cases s
    · simp [hlocate, hlow] at hhigh
    · exact .inl ⟨_, locateCause_ne_eventProduced _, decodeCapture_of_notLocated hnone, habort⟩
  · obtain ⟨b0, b1, b2, -, -, -, rfl⟩ := load_next.1 hload
    simp [hlow] at hhigh
  · obtain ⟨hzero, habort⟩ | ⟨-, hsane⟩ := sanity_cases p s
    · have hraw : RawAt s.cap p := by simpa [hp, StageFits] using hfits
      exact .inl ⟨_, by decide, hrev ▸ decodeCapture_of_zero hraw hzero, habort⟩
    · simp [hsane, hlow] at hhigh
  · simp [hlow] at hhigh
  · simp [hlow] at hhigh
  · obtain ⟨c, l, f, v, -, -, rfl⟩ := exec_next hexec
    simp [hlow] at hhigh
  · obtain ⟨-, hlabel, -⟩ | ⟨-, hemit⟩ := guardLabel_cases k s
    · have hat : ClassifiedAt s.rev s.cap k := by simpa [hk, StageFits] using hfits
      obtain ⟨l, hsome⟩ := hat.exists_label
      simp [hsome] at hlabel
    · simp [hemit, hlow] at hhigh
  · obtain ⟨l, -, rfl⟩ := emitEvent_next.1 hemit
    simp [hlow] at hhigh
  · obtain ⟨e, he⟩ := Option.isSome_iff_exists.1 hev
    exact .inr ⟨k, e, hk, he, rfl⟩

/-- While `ev_valid` is high in EMIT, `Decode` produces an event, and its record is the last the sink has taken (R186). -/
theorem Coherent.decode_of_eventValid {s : State} {k : ClassifiedRegs} {e : EventPort} (hco : Coherent s)
    (hs : s.stage = .emit k) (hev : s.ev = some e) :
    (decodeCapture s.rev s.cap).1 = .eventProduced ∧ s.sink.getLast? = (decodeCapture s.rev s.cap).2 := by
  obtain ⟨-, hfits, hevent, -, -⟩ := hco
  obtain ⟨-, k', l, hs', hlabel, rfl, hlast⟩ := hevent e hev
  obtain rfl : k = k' := Stage.emit.inj (hs.symm.trans hs')
  have hat : ClassifiedAt s.rev s.cap k := by simpa [hs, StageFits] using hfits
  simp [decodeCapture_of_classifiedAt hat hlabel, hlast]

/-- As `done` rises, the result outputs are those of `Decode`, the dispatcher receives them, and the record of a success
is already with the sink (R196, R199). -/
theorem raised_result_of_decode {s t : State} {p : ResultPort} (hco : Coherent s) (hstep : step s = .next t)
    (hlow : s.result = none) (hhigh : t.result = some p) :
    p = (decodeCapture s.rev s.cap).1.port ∧ t.results = s.results ++ [p] ∧
      (p.outcome = .eventProduced → t.sink = s.sink ∧ s.sink.getLast? = (decodeCapture s.rev s.cap).2) := by
  obtain ⟨cause, hcause, hdecode, rfl⟩ | ⟨k, e, hs, hev, rfl⟩ := step_raises_done hco hstep hlow hhigh
  · obtain rfl : cause.port = p := Option.some.inj hhigh
    exact ⟨by rw [hdecode], rfl, fun h => absurd h hcause⟩
  · obtain ⟨houtcome, hlast⟩ := hco.decode_of_eventValid hs hev
    obtain rfl : Ending.eventProduced.port = p := Option.some.inj hhigh
    exact ⟨by rw [houtcome], rfl, fun _ => ⟨rfl, hlast⟩⟩

/-- Settles O34: the result outputs are those of `Decode` as they rise, and the step after is `finishReturn`, which ends in
IDLE, where no register exists. -/
theorem returnReportsDecodeAndEndsInIdle : Obligations.ReturnReportsDecodeAndEndsInIdle := by
  unfold Obligations.ReturnReportsDecodeAndEndsInIdle
  intro s t p hco hstep hlow hhigh
  obtain ⟨rfl, hresults, hsink⟩ := raised_result_of_decode hco hstep hlow hhigh
  exact ⟨rfl, rfl, rfl, hresults, hsink,
    fun hrst => ⟨finishReturn t, step_of_result hrst hhigh, rfl, rfl, rfl, rfl, rfl, rfl, rfl, rfl⟩⟩

/-! Runs of several steps. -/

theorem run_succ_of_step {M : Host.Core} {s t : M.State} (n : Nat) (h : M.step s = .next t) :
    M.run (n + 1) s = M.run n t := by
  rw [Host.Core.run, h]

theorem runSteps_succ {s t : State} (n : Nat) (h : step s = .next t) : runSteps (n + 1) s = runSteps n t :=
  run_succ_of_step (M := core) n h

/-- A run that goes on does not stop at its first step. -/
theorem step_of_run_succ {M : Host.Core} {n : Nat} {s t : M.State} (h : M.run (n + 1) s = .next t) :
    ∃ u, M.step s = .next u ∧ M.run n u = .next t := by
  rw [Host.Core.run] at h
  split at h
  next u hstep => exact ⟨u, hstep, h⟩
  next => cases h
  next => cases h

theorem runSteps_add {m : Nat} {s t : State} (n : Nat) (h : runSteps m s = .next t) :
    runSteps (m + n) s = runSteps n t := by
  induction m generalizing s with
  | zero =>
    cases h
    rw [Nat.zero_add]
  | succ m ih =>
    obtain ⟨u, hstep, hrun⟩ := step_of_run_succ (M := core) h
    rw [Nat.add_right_comm, runSteps_succ (m + n) hstep, ih hrun]

/-- At most `n` steps lead from `s` to `t`. -/
def ReachesWithin (n : Nat) (s t : State) : Prop := ∃ m ≤ n, runSteps m s = .next t

theorem ReachesWithin.refl (n : Nat) (s : State) : ReachesWithin n s s := ⟨0, Nat.zero_le n, rfl⟩

theorem ReachesWithin.mono {m n : Nat} {s t : State} (h : ReachesWithin m s t) (hmn : m ≤ n) : ReachesWithin n s t := by
  obtain ⟨j, hj, hrun⟩ := h
  exact ⟨j, hj.trans hmn, hrun⟩

theorem ReachesWithin.head {n : Nat} {s t u : State} (hstep : step s = .next t) (h : ReachesWithin n t u) :
    ReachesWithin (n + 1) s u := by
  obtain ⟨j, hj, hrun⟩ := h
  exact ⟨j + 1, Nat.succ_le_succ hj, (runSteps_succ j hstep).trans hrun⟩

/-! One invocation, from its end backwards: from each stage the machine comes to the end that `Decode` names. -/

/-- How an invocation on the Capture at hand ends: the result of `Decode` with the dispatcher, its record, if any, with
the sink, and IDLE with the ports low (R196, R199). -/
def concluded (s : State) : State :=
  { s with
    stage := .idle
    ev := none
    result := none
    diagSanity := false
    results := s.results ++ [(decodeCapture s.rev s.cap).1.port]
    sink := s.sink ++ (decodeCapture s.rev s.cap).2.toList }

/-- At most `n` steps end the invocation as `Decode` says. -/
def ConcludesWithin (n : Nat) (s : State) : Prop := ReachesWithin n s (concluded s)

/-- A step that only moves `stage` leaves the end of the invocation as it was. -/
theorem ConcludesWithin.of_stage {n : Nat} {s : State} {st : Stage} (hstep : step s = .next { s with stage := st })
    (h : ConcludesWithin n { s with stage := st }) : ConcludesWithin (n + 1) s :=
  ReachesWithin.head hstep h

/-- An abort takes two steps: `done` rises and falls (R199, R227). -/
theorem concludes_of_abort {s : State} {cause : Ending} (hrst : s.rst = false) (hev : s.ev = none)
    (hstep : step s = .next (raiseAbort cause s)) (hdecode : decodeCapture s.rev s.cap = (cause, none)) :
    ConcludesWithin 2 s := by
  have hend : finishReturn (raiseAbort cause s) = concluded s := by
    simp [finishReturn, raiseAbort, raiseDone, concluded, hdecode, hev]
  exact .head hstep (.head (step_of_result hrst (raiseAbort_result cause s)) (hend ▸ .refl 0 _))

theorem concludes_of_emit {s : State} {k : ClassifiedRegs} (hacts : StageActs s) (hev : s.ev = none)
    (hs : s.stage = .emit k) (hfits : ClassifiedAt s.rev s.cap k) : ConcludesWithin 3 s := by
  obtain ⟨l, hlabel⟩ := hfits.exists_label
  have hfirst := (step_of_emit hacts hs hev).trans (emitEvent_next.2 ⟨l, hlabel, rfl⟩)
  have hend : concluded s = finishReturn (endEmit { s with
      ev := some (eventPort s.rev k.command.id k.command.cmd l k.fsel k.fval)
      sink := s.sink ++ [eventRecord s.rev k.command.id k.command.cmd l k.fsel k.fval] }) := by
    simp [finishReturn, endEmit, raiseDone, concluded, decodeCapture_of_classifiedAt hfits hlabel]
  refine .head hfirst (.head (step_of_eventValid hacts hs rfl) (.head (step_of_result hacts.1 rfl) ?_))
  exact hend ▸ .refl 0 _

/-- The guard passes a present label on to EMIT (R150, R170). -/
theorem step_of_classified {s : State} {k : ClassifiedRegs} {l : StateLabel} (hacts : StageActs s)
    (hs : s.stage = .classified k) (hlabel : k.label = some l) : step s = .next { s with stage := .emit k } := by
  have hguard : guardLabel k s = { s with stage := .emit k } := by
    obtain ⟨-, hnone, -⟩ | ⟨-, hemit⟩ := guardLabel_cases k s
    · simp [hlabel] at hnone
    · exact hemit
  simp [step, nextOperation_of_acts hacts.1 hacts.2, stageOperation, hs, hguard]

theorem concludes_of_classified {s : State} {k : ClassifiedRegs} (hacts : StageActs s) (hev : s.ev = none)
    (hs : s.stage = .classified k) (hfits : ClassifiedAt s.rev s.cap k) : ConcludesWithin 4 s := by
  obtain ⟨l, hlabel⟩ := hfits.exists_label
  exact .of_stage (step_of_classified hacts hs hlabel) (concludes_of_emit hacts hev rfl hfits)

/-- Each of the 32 command rules writes the entry of its revision's Command Table at its code (R140, R160). -/
theorem exec_ofCommand (rev : Rev) (id : BitVec 20) (cmd : BitVec 4) (s : State) :
    exec (Instr.ofCommand rev id cmd) s = classifyAs rev cmd id (entryLabel (tableEntry rev cmd))
      (entryFsel (tableEntry rev cmd)) (entryFval (tableEntry rev cmd)) s := by
  obtain ⟨code, hcode, rfl⟩ : ∃ code < 16, cmd = BitVec.ofNat 4 code := ⟨cmd.toNat, cmd.isLt, by simp⟩
  cases rev with
  | A => interval_cases code <;> rfl
  | B => interval_cases code <;> rfl

/-- In CLASSIFY the step writes the table's entry (R95, R151, R170). -/
theorem step_of_classify {s : State} {c : CommandRegs} (hacts : StageActs s) (hs : s.stage = .classify c) :
    step s = .next { s with stage := .classified ⟨c, some (entryLabel (tableEntry s.rev c.cmd)),
      entryFsel (tableEntry s.rev c.cmd), entryFval (tableEntry s.rev c.cmd)⟩ } := by
  simp [step, nextOperation_of_acts hacts.1 hacts.2, stageOperation, hs, exec_ofCommand, classifyAs_atHand hs]

theorem concludes_of_classify {s : State} {c : CommandRegs} (hacts : StageActs s) (hev : s.ev = none)
    (hs : s.stage = .classify c) (hfits : CommandAt s.rev s.cap c) : ConcludesWithin 5 s :=
  .of_stage (step_of_classify hacts hs) (concludes_of_classified hacts hev rfl ⟨hfits, rfl, rfl, rfl⟩)

theorem concludes_of_extract {s : State} {p : PayloadRegs} (hacts : StageActs s) (hev : s.ev = none)
    (hs : s.stage = .inverted p ∨ s.rev = .B ∧ s.stage = .loaded p)
    (hfits : CommandAt s.rev s.cap ⟨p, extractId p.b0 p.b1 p.b2, extractCmd p.b2⟩) : ConcludesWithin 6 s :=
  .of_stage (step_of_extract hacts hs) (concludes_of_classify hacts hev rfl hfits)

theorem concludes_of_sane {s : State} {p : PayloadRegs} (hacts : StageActs s) (hev : s.ev = none) (hrev : s.rev = .A)
    (hs : s.stage = .sane p) (hraw : RawAt s.cap p) (hnonzero : allZero p.b0 p.b1 p.b2 = false) :
    ConcludesWithin 7 s :=
  .of_stage (step_of_sane hacts hrev hs) <| concludes_of_extract hacts hev (.inl rfl)
    ⟨p, hraw, fun _ => hnonzero, by simp [commandRegsOf, polarity, hrev]⟩

/-- SANITY is the step on the loaded bytes under Revision A (R126, R133). -/
theorem step_of_loaded_A {s : State} {p : PayloadRegs} (hacts : StageActs s) (hrev : s.rev = .A)
    (hs : s.stage = .loaded p) : step s = .next (sanity p s) := by
  simp [step, nextOperation_of_acts hacts.1 hacts.2, stageOperation, hs, hrev]

/-- Here the revisions part: Revision B extracts at once, Revision A aborts or goes on (R128, R133). -/
theorem concludes_of_loaded {s : State} {p : PayloadRegs} (hacts : StageActs s) (hev : s.ev = none)
    (hs : s.stage = .loaded p) (hraw : RawAt s.cap p) : ConcludesWithin 8 s := by
  cases hrev : s.rev with
  | A =>
    have hstep := step_of_loaded_A hacts hrev hs
    obtain ⟨hzero, habort⟩ | ⟨hnonzero, hsane⟩ := sanity_cases p s
    · have hdecode := hrev ▸ decodeCapture_of_zero hraw hzero
      exact (concludes_of_abort hacts.1 hev (habort ▸ hstep) hdecode).mono (by decide)
    · exact .of_stage (hstep.trans (congrArg _ hsane)) (concludes_of_sane hacts hev hrev rfl hraw hnonzero)
  | B =>
    have hfits : CommandAt s.rev s.cap ⟨p, extractId p.b0 p.b1 p.b2, extractCmd p.b2⟩ :=
      ⟨p, hraw, by simp [hrev], by simp [commandRegsOf, polarity, hrev]⟩
    exact (concludes_of_extract hacts hev (.inr ⟨hrev, hs⟩) hfits).mono (by decide)

/-- LOAD is the first step of DECODE (R125). -/
theorem step_of_decode {s : State} {r : Nat} (hacts : StageActs s) (hs : s.stage = .decode r) : step s = load r s := by
  simp [step, nextOperation_of_acts hacts.1 hacts.2, stageOperation, hs]

theorem concludes_of_decode {s : State} {r : Nat} (hacts : StageActs s) (hev : s.ev = none) (hs : s.stage = .decode r)
    (hlocated : locateFrame s.cap = some r) : ConcludesWithin 9 s := by
  obtain ⟨row, -, -, h0, h1, h2⟩ := memRead_of_located hlocated
  have hstep := (step_of_decode hacts hs).trans (load_next.2 ⟨_, _, _, h0, h1, h2, rfl⟩)
  exact .of_stage hstep (concludes_of_loaded hacts hev rfl ⟨hlocated, h0, h1, h2⟩)

theorem concludes_of_locate {s : State} (hacts : StageActs s) (hev : s.ev = none) (hs : s.stage = .locate) :
    ConcludesWithin 10 s := by
  have hstep := step_of_locate hacts hs
  obtain ⟨r, hlocated, hlocate⟩ | ⟨hnone, habort⟩ := locate_cases s
  · exact .of_stage (hstep.trans (congrArg _ hlocate)) (concludes_of_decode hacts hev rfl hlocated)
  · exact (concludes_of_abort hacts.1 hev (habort ▸ hstep) (decodeCapture_of_notLocated hnone)).mono (by decide)

/-! Invocations one after another. -/

/-- START puts a well-formed Capture on the read port (R195). -/
theorem step_of_offer {s : State} {c : Capture} {rest : List Capture} (hacts : StageActs s) (hs : s.stage = .idle)
    (hoffers : s.offers = c :: rest) (hwf : Capture.wf c = true) :
    step s = .next { s with cap := c, offers := rest, stage := .locate } := by
  simp [step, nextOperation_of_acts hacts.1 hacts.2, stageOperation, hs, hoffers, startOn, hwf]

theorem Quiet.served {s : State} (h : Quiet s) (c : Capture) (rest : List Capture) : Quiet (served s c rest) := h

/-- From rest, the next offered Capture is served as `Decode` says (R196). -/
theorem reaches_served {s : State} {c : Capture} {rest : List Capture} (hquiet : Quiet s)
    (hoffers : s.offers = c :: rest) (hwf : Capture.wf c = true) : ReachesWithin 11 s (served s c rest) := by
  obtain ⟨hidle, hev, hresult, hdiag, hrst⟩ := hquiet
  have hend : concluded { s with cap := c, offers := rest, stage := .locate } = served s c rest := by
    simp [concluded, served, hidle, hev, hresult, hdiag]
  exact .head (step_of_offer ⟨hrst, hresult⟩ hidle hoffers hwf)
    (hend ▸ concludes_of_locate (s := { s with cap := c, offers := rest, stage := .locate }) ⟨hrst, hresult⟩ hev rfl)

/-- Settles O43, by induction on the Captures offered: the first is served from rest and leaves the machine at rest, of the
same revision, with the others still to be offered. -/
theorem eachResultIsDecodeOfItsCapture : Obligations.EachResultIsDecodeOfItsCapture := by
  unfold Obligations.EachResultIsDecodeOfItsCapture
  intro s hquiet hwf
  generalize hoffers : s.offers = caps at hwf ⊢
  induction caps generalizing s with
  | nil => exact ⟨0, s, rfl, hquiet, hoffers, rfl, by simp, by simp⟩
  | cons c rest ih =>
    obtain ⟨hc, hrest⟩ := List.forall_mem_cons.1 hwf
    obtain ⟨m, -, hfirst⟩ := reaches_served hquiet hoffers hc
    obtain ⟨n, t, hrun, ht, hnone, hrev, hresults, hsink⟩ := ih (served s c rest) (hquiet.served c rest) rfl hrest
    refine ⟨m + n, t, (runSteps_add n hfirst).trans hrun, ht, hnone, hrev, ?_, ?_⟩
    · simp [hresults, served]
    · cases hrecord : (decodeCapture s.rev c).2 <;> simp [hsink, served, hrecord]

end Sys2Proof.Machine
end


/-! The encoding of spec/30_encoding.md and the reads of spec/20_memory.md. -/
section
namespace Sys2Proof.Machine

/-! Rows as bytes. -/

/-- The bits of two values side by side are the bits of the first, then those of the second (R55). -/
theorem unpackBits_append {m n : Nat} (x : BitVec m) (y : BitVec n) :
    unpackBits (x ++ y) = unpackBits x ++ unpackBits y := by
  have hx : (List.range m).map (fun k => (x ++ y).getMsbD k) = unpackBits x :=
    List.map_congr_left fun k hk => by simp [BitVec.getMsbD_append, Nat.not_le.2 (List.mem_range.1 hk)]
  have hy : (List.range n).map (fun k => (x ++ y).getMsbD (m + k)) = unpackBits y :=
    List.map_congr_left fun k _ => by simp [BitVec.getMsbD_append]
  rw [unpackBits, List.range_add, List.map_append, List.map_map, hx]
  exact congrArg _ hy

/-- Packing goes piece by piece (R55). -/
theorem packBits_append {m n : Nat} {xs ys : List Bool} (hx : xs.length = m) (hy : ys.length = n) :
    packBits (m + n) (xs ++ ys) = packBits m xs ++ packBits n ys := by
  rw [← packBits_unpackBits (packBits m xs ++ packBits n ys), unpackBits_append, unpackBits_packBits hx,
    unpackBits_packBits hy]

/-- The byte in bits `i` to `i + 7` of a row (R55, R81). -/
def byteAt (row : Row) (i : Nat) : Byte := packBits 8 ((row.drop i).take 8)

theorem memRead_byte {cap : Capture} {r i : Nat} {row : Row} (hrow : cap[r]? = some row) (h : i + 8 ≤ row.length) :
    memRead cap r i 8 = some (byteAt row i) :=
  memRead_of_row hrow h

/-- The three bytes LOAD reads are the first 24 bits of the row (R81, R125). -/
theorem byteAt_append {row : Row} (h : 24 ≤ row.length) :
    byteAt row 0 ++ byteAt row 8 ++ byteAt row 16 = packBits 24 (row.take 24) := by
  have hlength (i : Nat) (hi : i ≤ 16) : ((row.drop i).take 8).length = 8 := by simp; omega
  have hcut : row.take 24 = (row.drop 0).take 8 ++ (row.drop 8).take 8 ++ (row.drop 16).take 8 := by
    rw [List.drop_zero, ← List.take_add, ← List.take_add]
  rw [hcut, packBits_append (m := 16) (by simp; omega) (hlength 16 (by omega)),
    packBits_append (hlength 0 (by omega)) (hlength 8 (by omega))]
  rfl

/-- Bit `k` of a packed stretch of a row is the row's bit at that place (R55). -/
theorem getElem?_eq_getMsbD_packBits {row : Row} {i n k : Nat} (h : i + n ≤ row.length) (hk : k < n) :
    row[i + k]? = some ((packBits n ((row.drop i).take n)).getMsbD k) := by
  have hlength : ((row.drop i).take n).length = n := by simp; omega
  rw [getMsbD_packBits hlength (by omega), ← List.getElem?_eq_getElem, List.getElem?_take_of_lt hk, List.getElem?_drop]

/-- Three zero bytes side by side are zero, and only they. -/
theorem append_eq_zero_iff (b0 b1 b2 : Byte) : b0 ++ b1 ++ b2 = 0#24 ↔ allZero b0 b1 b2 = true := by
  have hzero : (0#8 ++ 0#8 ++ 0#8 : BitVec 24) = 0#24 := by decide
  simp only [allZero, Bool.and_eq_true, beq_iff_eq]
  constructor
  · intro h
    obtain ⟨h01, h2⟩ := bitVec_append_inj (h.trans hzero.symm)
    exact ⟨bitVec_append_inj h01, h2⟩
  · rintro ⟨⟨rfl, rfl⟩, rfl⟩
    exact hzero

/-- The condition of SANITY on a row's bytes, bit by bit (R126). -/
theorem allZero_byteAt_iff {row : Row} (h : 24 ≤ row.length) :
    allZero (byteAt row 0) (byteAt row 8) (byteAt row 16) = true ↔ ∀ k < 24, row[k]? = some false := by
  have hbit (k : Nat) (hk : k < 24) : row[k]? = some ((packBits 24 (row.take 24)).getMsbD k) := by
    simpa using getElem?_eq_getMsbD_packBits (i := 0) (n := 24) (by omega) hk
  rw [← append_eq_zero_iff, byteAt_append h]
  constructor
  · intro hzero k hk
    rw [hbit k hk, hzero, BitVec.getMsbD_zero]
  · intro hfalse
    refine BitVec.eq_of_getMsbD_eq fun k hk => ?_
    rw [BitVec.getMsbD_zero]
    exact Option.some.inj ((hbit k hk).symm.trans (hfalse k hk))

/-- A row of 25 bits is its three bytes, then its last bit (R81, R82). -/
theorem row_eq_unpackBits {row : Row} (h : row.length = 25) :
    ∃ sync, row = unpackBits (byteAt row 0 ++ byteAt row 8 ++ byteAt row 16) ++ [sync] := by
  obtain ⟨sync, hsync⟩ := List.length_eq_one_iff.1 (show (row.drop 24).length = 1 by simp [h])
  refine ⟨sync, ?_⟩
  rw [byteAt_append (by omega), unpackBits_packBits (by simp [h]), ← hsync, List.take_append_drop]

/-! The fields of a command. -/

theorem Instr.ofCommand_fields (i : Instr) : Instr.ofCommand i.rev i.id i.cmd = i := by
  cases i <;> rfl

/-- The command a code names has that code, that `id` and that revision (R95). -/
theorem fields_ofCommand (rev : Rev) (id : BitVec 20) (cmd : BitVec 4) :
    (Instr.ofCommand rev id cmd).rev = rev ∧ (Instr.ofCommand rev id cmd).id = id ∧
      (Instr.ofCommand rev id cmd).cmd = cmd := by
  obtain ⟨code, hcode, rfl⟩ : ∃ code < 16, cmd = BitVec.ofNat 4 code := ⟨cmd.toNat, cmd.isLt, by simp⟩
  cases rev with
  | A => interval_cases code <;> exact ⟨rfl, rfl, rfl⟩
  | B => interval_cases code <;> exact ⟨rfl, rfl, rfl⟩

/-- The exception of R99 is one pair under Revision A. -/
theorem wellFormed_iff (i : Instr) : i.wellFormed = true ↔ ¬ (i.rev = .A ∧ i.id = 0xfffff ∧ i.cmd = 0xf) := by
  cases i <;> simp [Instr.wellFormed, Instr.rev, Instr.id, Instr.cmd]

/-- Taking raw bytes under the polarity rule and laying them out again gives the raw bits back (R83, R99). -/
theorem rawOf_polarity (rev : Rev) (b0 b1 b2 : Byte) :
    rawOf rev (polarity rev b0 ++ polarity rev b1 ++ polarity rev b2) = b0 ++ b1 ++ b2 := by
  cases rev with
  | A =>
    have hones : (0xFFFFFF#24 : BitVec 24) = (0xFF#8 ++ 0xFF#8 ++ 0xFF#8 : BitVec 24) := by decide
    rw [rawOf, hones, BitVec.xor_append, BitVec.xor_append]
    simp only [polarity, invertByte, BitVec.xor_assoc, BitVec.xor_self, BitVec.xor_zero]
  | B => rfl

@[simp] theorem polarity_polarity (rev : Rev) (b : Byte) : polarity rev (polarity rev b) = b := by
  cases rev <;> simp [polarity]

/-! Decoding and encoding, each in terms of the three raw bytes. -/

/-- The command in three raw bytes where none is refused (R95, R133). -/
def commandOf (rev : Rev) (b0 b1 b2 : Byte) : Instr :=
  Instr.ofCommand rev (extractId (polarity rev b0) (polarity rev b1) (polarity rev b2)) (extractCmd (polarity rev b2))

theorem decodeBytes_cases (rev : Rev) (b0 b1 b2 : Byte) :
    (rev = .A ∧ allZero b0 b1 b2 = true ∧ decodeBytes rev b0 b1 b2 = .error .allZeroPayload) ∨
    (¬ (rev = .A ∧ allZero b0 b1 b2 = true) ∧ decodeBytes rev b0 b1 b2 = .ok (commandOf rev b0 b1 b2)) := by
  unfold decodeBytes
  split
  next h => exact .inl ⟨h.1, h.2, rfl⟩
  next h => exact .inr ⟨h, rfl⟩

theorem decodeRow_of_length {rev : Rev} {row : Row} (h : row.length = 25) :
    decodeRow rev row = decodeBytes rev (byteAt row 0) (byteAt row 8) (byteAt row 16) :=
  if_pos h

theorem decodeRow_of_length_ne {rev : Rev} {row : Row} (h : row.length ≠ 25) :
    decodeRow rev row = .error .notAFrame :=
  if_neg h

/-- A row that carries a command is 25 bits long, and the command is the one in its bytes (R87, R97). -/
theorem decodeRow_ok {rev : Rev} {row : Row} {i : Instr} (h : decodeRow rev row = .ok i) :
    row.length = 25 ∧ ¬ (rev = .A ∧ allZero (byteAt row 0) (byteAt row 8) (byteAt row 16) = true) ∧
      i = commandOf rev (byteAt row 0) (byteAt row 8) (byteAt row 16) := by
  by_cases hlength : row.length = 25
  · rw [decodeRow_of_length hlength] at h
    obtain ⟨-, -, herror⟩ | ⟨haccepted, hok⟩ := decodeBytes_cases rev (byteAt row 0) (byteAt row 8) (byteAt row 16)
    · simp [herror] at h
    · exact ⟨hlength, haccepted, Except.ok.inj (h.symm.trans hok)⟩
  · simp [decodeRow_of_length_ne hlength] at h

theorem decodeRow_unpackBits (rev : Rev) (b0 b1 b2 : Byte) (sync : Bool) :
    decodeRow rev (unpackBits (b0 ++ b1 ++ b2) ++ [sync]) = decodeBytes rev b0 b1 b2 := by
  have hrow : unpackBits (b0 ++ b1 ++ b2) ++ [sync] =
      unpackBits b0 ++ (unpackBits b1 ++ (unpackBits b2 ++ [sync])) := by
    rw [unpackBits_append, unpackBits_append, List.append_assoc, List.append_assoc]
  obtain ⟨h0, h1, h2⟩ := cut_bytes b0 b1 b2 [sync]
  rw [decodeRow_of_length (by simp), hrow]
  simp only [byteAt, List.drop_zero, h0, h1, h2, packBits_unpackBits]

/-- The Frame of the command in three raw bytes carries those bytes (R99). -/
theorem encode_commandOf (rev : Rev) (b0 b1 b2 : Byte) (sync : Bool) :
    encode (commandOf rev b0 b1 b2) sync = unpackBits (b0 ++ b1 ++ b2) ++ [sync] := by
  obtain ⟨hrev, hid, hcmd⟩ := fields_ofCommand rev (extractId (polarity rev b0) (polarity rev b1) (polarity rev b2))
    (extractCmd (polarity rev b2))
  rw [encode, commandOf, hrev, hid, hcmd, payloadOf_extract, frameOf, rawOf_polarity]

/-- A command is ill-formed exactly where its bytes are refused (R97, R99). -/
theorem commandOf_wellFormed_iff (rev : Rev) (b0 b1 b2 : Byte) :
    (commandOf rev b0 b1 b2).wellFormed = true ↔ ¬ (rev = .A ∧ allZero b0 b1 b2 = true) := by
  obtain ⟨hrev, hid, hcmd⟩ := fields_ofCommand rev (extractId (polarity rev b0) (polarity rev b1) (polarity rev b2))
    (extractCmd (polarity rev b2))
  rw [wellFormed_iff, commandOf, hrev, hid, hcmd]
  cases rev with
  | A => simp only [polarity, extract_inverted_eq_iff]
  | B => simp

/-- Every command is the one in some three raw bytes. -/
theorem exists_commandOf (i : Instr) : ∃ b0 b1 b2, i = commandOf i.rev b0 b1 b2 := by
  obtain ⟨b0, b1, b2, hid, hcmd⟩ := extract_surjective i.id i.cmd
  refine ⟨polarity i.rev b0, polarity i.rev b1, polarity i.rev b2, ?_⟩
  simp only [commandOf, polarity_polarity, hid, hcmd, Instr.ofCommand_fields]

/-- The round trip of R99 on a well-formed command. -/
theorem decodeRow_encode {i : Instr} (sync : Bool) (h : i.wellFormed = true) :
    (encode i sync).length = 25 ∧ decodeRow i.rev (encode i sync) = .ok i := by
  obtain ⟨b0, b1, b2, hi⟩ := exists_commandOf i
  have hencode : encode i sync = unpackBits (b0 ++ b1 ++ b2) ++ [sync] := by rw [hi, encode_commandOf]
  obtain ⟨hrev, hzero, -⟩ | ⟨-, hok⟩ := decodeBytes_cases i.rev b0 b1 b2
  · rw [hi, commandOf_wellFormed_iff] at h
    exact absurd ⟨hrev, hzero⟩ h
  · exact ⟨by simp [hencode], by rw [hencode, decodeRow_unpackBits, hok, ← hi]⟩

/-- Settles O12: the Frame of a command carries the raw bytes the command is extracted from. -/
theorem encodedCommandDecodesBack : Obligations.EncodedCommandDecodesBack := by
  unfold Obligations.EncodedCommandDecodesBack
  exact ⟨fun i sync h => decodeRow_encode sync h, by decide⟩

/-- Settles O13: a row is its three bytes and its last bit, and the Frame of the command in the bytes carries them. -/
theorem decodedRowIsTheEncoding : Obligations.DecodedRowIsTheEncoding := by
  unfold Obligations.DecodedRowIsTheEncoding
  intro rev row i h
  obtain ⟨hlength, haccepted, rfl⟩ := decodeRow_ok h
  obtain ⟨sync, hrow⟩ := row_eq_unpackBits hlength
  exact ⟨(fields_ofCommand rev _ _).1, (commandOf_wellFormed_iff rev _ _ _).2 haccepted, sync,
    by rw [encode_commandOf, ← hrow]⟩

/-- Settles O14: the length decides the first refusal; on 25 bits the decoder answers as the bytes do. -/
theorem decoderRefusesByName : Obligations.DecoderRefusesByName := by
  unfold Obligations.DecoderRefusesByName
  intro rev row
  by_cases hlength : row.length = 25
  · rw [decodeRow_of_length hlength, ← allZero_byteAt_iff (by omega)]
    obtain ⟨hrev, hzero, herror⟩ | ⟨haccepted, hok⟩ :=
      decodeBytes_cases rev (byteAt row 0) (byteAt row 8) (byteAt row 16)
    · rw [herror]
      simp [hlength, hrev, hzero]
    · simpa [hok, hlength] using haccepted
  · simp [decodeRow_of_length_ne hlength, hlength]

/-- Settles O15: the decoder evaluated on each row. -/
theorem writtenOutRowsDecode : Obligations.WrittenOutRowsDecode := by
  unfold Obligations.WrittenOutRowsDecode
  exact ⟨rfl, rfl, rfl, rfl⟩

end Sys2Proof.Machine
end


/-! One step from each stage, as the operation that acts there (spec/45_invocation.md section 3). -/
section
namespace Sys2Proof.Machine

/-- A reset comes before all else (R245). -/
theorem step_of_reset {s : State} (hrst : s.rst = true) : step s = .next (applyReset s) := by
  simp [step, nextOperation, hrst]

/-- IDLE with nothing offered (R26). -/
theorem step_of_wait {s : State} (hacts : StageActs s) (hs : s.stage = .idle) (hoffers : s.offers = []) :
    step s = .next s := by
  simp [step, nextOperation_of_acts hacts.1 hacts.2, stageOperation, hs, hoffers]

/-- START of a structure that is no Capture is refused at the boundary (R61). -/
theorem step_of_noCapture {s : State} {c : Capture} {rest : List Capture} (hacts : StageActs s) (hs : s.stage = .idle)
    (hoffers : s.offers = c :: rest) (hwf : Capture.wf c = false) : step s = .refused .notACapture := by
  simp [step, nextOperation_of_acts hacts.1 hacts.2, stageOperation, hs, hoffers, startOn, hwf]

/-- The guard follows the command (R150, R170). -/
theorem step_of_guard {s : State} {k : ClassifiedRegs} (hacts : StageActs s) (hs : s.stage = .classified k) :
    step s = .next (guardLabel k s) := by
  simp [step, nextOperation_of_acts hacts.1 hacts.2, stageOperation, hs]

/-- In CLASSIFY the step is the command at hand (R95, R197). -/
theorem step_of_command {s : State} {c : CommandRegs} (hacts : StageActs s) (hs : s.stage = .classify c) :
    step s = exec (Instr.ofCommand s.rev c.id c.cmd) s := by
  simp [step, nextOperation_of_acts hacts.1 hacts.2, stageOperation, hs]

/-- Settles O1: the sequencer names the command of `REV`, `id` and `cmd`. -/
theorem stepRunsTheCommandAtHand : Obligations.StepRunsTheCommandAtHand := by
  unfold Obligations.StepRunsTheCommandAtHand
  exact fun s c hacts hs => step_of_command hacts hs

/-- Settles O38: the three cases of START, by what is offered. -/
theorem startTakesTheOfferedCapture : Obligations.StartTakesTheOfferedCapture := by
  unfold Obligations.StartTakesTheOfferedCapture
  exact fun s hacts hs => ⟨fun c rest hoffers hwf => step_of_offer hacts hs hoffers hwf,
    fun c rest hoffers hwf => step_of_noCapture hacts hs hoffers hwf, fun hoffers => step_of_wait hacts hs hoffers⟩

/-- Settles O29: the guard's two cases; with a label, or in Revision B, its condition fails. -/
theorem guardAbortsWithoutLabel : Obligations.GuardAbortsWithoutLabel := by
  unfold Obligations.GuardAbortsWithoutLabel
  intro s k hacts hs
  rw [step_of_guard hacts hs]
  obtain ⟨hrev, hnone, habort⟩ | ⟨hpass, hemit⟩ := guardLabel_cases k s
  · simp [habort, hrev, hnone]
  · refine ⟨fun hrev hnone => ?_, fun _ => by rw [hemit]⟩
    simp [hrev, hnone] at hpass

/-- Settles O23: SANITY is the step, and `allZero` is its condition; the abort writes the result and the diagnostic. -/
theorem sanityRefusesZeroRawBytes : Obligations.SanityRefusesZeroRawBytes := by
  unfold Obligations.SanityRefusesZeroRawBytes
  intro s p hacts hrev hs
  rw [step_of_loaded_A hacts hrev hs]
  have hzero : allZero p.b0 p.b1 p.b2 = true ↔ p.b0 = 0 ∧ p.b1 = 0 ∧ p.b2 = 0 := by simp [allZero, and_assoc]
  rw [← hzero]
  obtain ⟨hz, habort⟩ | ⟨hz, hsane⟩ := sanity_cases p s
  · simp [hz, habort, raiseAbort, raiseDone, Ending.port, Ending.code, Ending.events]
  · simp [hz, hsane]

/-- Settles O35: the fields that `raiseAbort` writes, and the end of the handshake in the step after. -/
theorem abortReturnsItsCauseAndNothingElse : Obligations.AbortReturnsItsCauseAndNothingElse := by
  unfold Obligations.AbortReturnsItsCauseAndNothingElse
  intro cause s hrst
  exact ⟨rfl, rfl, rfl, rfl, rfl, rfl, rfl, rfl, by simp, step_of_result hrst (raiseAbort_result cause s)⟩

/-- Settles O36: the fields of `State.resetOf`. -/
theorem resetLeavesNothing : Obligations.ResetLeavesNothing := by
  unfold Obligations.ResetLeavesNothing
  exact ⟨fun rev => ⟨rfl, rfl, rfl, rfl, rfl, rfl, rfl, rfl, rfl, rfl, rfl, rfl, rfl, rfl, rfl⟩, _, rfl⟩

/-- Settles O37: the step is `applyReset`, which lowers the ports and leaves the inputs and the lists. -/
theorem resetAbandonsTheInvocation : Obligations.ResetAbandonsTheInvocation := by
  unfold Obligations.ResetAbandonsTheInvocation
  intro s hrst
  exact ⟨applyReset s, step_of_reset hrst, ⟨rfl, rfl, rfl, rfl, rfl⟩, rfl, rfl, rfl, rfl, rfl⟩

end Sys2Proof.Machine
end


/-! The invariant: every step keeps it, and under it no step faults. -/
section
namespace Sys2Proof.Machine

/-! What a coherent state gives, stage by stage. -/

/-- Where the stage is known, the registers hold what the operations before it put there (R24, R25). -/
theorem Coherent.stageFits {s : State} {st : Stage} (hco : Coherent s) (hs : s.stage = st) :
    StageFits s.rev s.cap st := by
  obtain ⟨-, hfits, -, -, -⟩ := hco
  exact hs ▸ hfits

theorem Coherent.capture_wf {s : State} (hco : Coherent s) : Capture.wf s.cap = true := hco.1

theorem Coherent.eventFits {s : State} (hco : Coherent s) : EventFits s := by
  obtain ⟨-, -, hevent, -, -⟩ := hco
  exact hevent

/-- `ev_valid` is high in EMIT only (R33, R186). -/
theorem Coherent.ev_eq_none {s : State} (hco : Coherent s) (hs : ∀ k, s.stage ≠ .emit k) : s.ev = none := by
  refine Option.eq_none_iff_forall_ne_some.2 fun e he => ?_
  obtain ⟨-, k, l, hk, -⟩ := hco.eventFits e he
  exact hs k hk

theorem Coherent.ev_eq_none_of_result {s : State} (hco : Coherent s) (hresult : s.result.isSome = true) :
    s.ev = none := by
  refine Option.eq_none_iff_forall_ne_some.2 fun e he => ?_
  obtain ⟨hnone, -⟩ := hco.eventFits e he
  simp [hnone] at hresult

/-- The diagnostic is down while no result stands (R35). -/
theorem Coherent.diagSanity_eq_false {s : State} (hco : Coherent s) (hresult : s.result = none) :
    s.diagSanity = false := by
  obtain ⟨-, -, -, -, hdiag⟩ := hco
  refine Bool.eq_false_iff.2 fun hup => ?_
  simpa [hresult] using (hdiag hup).2

/-! Coherence of a state built from its parts. -/

theorem eventFits_of_low {s : State} (h : s.ev = none) : EventFits s := by
  intro e he
  simp [h] at he

theorem resultFits_of_low {s : State} (h : s.result = none) : ResultFits s := by
  intro p hp
  simp [h] at hp

/-- With all ports low, only the Capture and the registers are left to fit. -/
theorem coherent_of_low {s : State} (hwf : Capture.wf s.cap = true) (hfits : StageFits s.rev s.cap s.stage)
    (hev : s.ev = none) (hresult : s.result = none) (hdiag : s.diagSanity = false) : Coherent s :=
  ⟨hwf, hfits, eventFits_of_low hev, resultFits_of_low hresult, fun hup => by simp [hdiag] at hup⟩

/-- Settles O39: at reset all ports are low, no register exists and the Capture is empty. -/
theorem resetIsCoherent : Obligations.ResetIsCoherent := by
  unfold Obligations.ResetIsCoherent
  have hco (rev : Rev) : Coherent (State.resetOf rev) :=
    coherent_of_low (resetOf_cap_wf rev) trivial rfl rfl rfl
  exact ⟨hco, hco _⟩

/-- A step that only moves `stage` keeps the invariant where the registers of the new stage fit. -/
theorem Coherent.withStage {s : State} {st : Stage} (hco : Coherent s) (hresult : s.result = none)
    (hs : ∀ k, s.stage ≠ .emit k) (hfits : StageFits s.rev s.cap st) : Coherent { s with stage := st } :=
  coherent_of_low hco.capture_wf hfits (hco.ev_eq_none hs) hresult (hco.diagSanity_eq_false hresult)

/-- An abort that `Decode` names keeps the invariant (R196, R227). -/
theorem Coherent.after_raiseAbort {s : State} {cause : Ending} (hco : Coherent s) (hs : ∀ k, s.stage ≠ .emit k)
    (hcause : cause ≠ .eventProduced) (hdecode : decodeCapture s.rev s.cap = (cause, none)) :
    Coherent (raiseAbort cause s) := by
  have hev := hco.ev_eq_none hs
  obtain ⟨hwf, hfits, -, -, -⟩ := hco
  refine ⟨hwf, hfits, eventFits_of_low hev, ?_, ?_⟩
  · intro p hp
    obtain rfl : cause.port = p := Option.some.inj hp
    exact ⟨by simp [hdecode], by simp, fun h => absurd h hcause⟩
  · intro hup
    obtain ⟨rfl, hverbose⟩ : cause = .sanityFailure ∧ Config.verbose = true := by simpa using hup
    exact ⟨hverbose, rfl⟩

theorem Coherent.after_applyReset {s : State} (hco : Coherent s) : Coherent (applyReset s) :=
  coherent_of_low hco.capture_wf trivial rfl rfl rfl

theorem Coherent.after_finishReturn {s : State} (hco : Coherent s) (hresult : s.result.isSome = true) :
    Coherent (finishReturn s) :=
  coherent_of_low hco.capture_wf trivial (hco.ev_eq_none_of_result hresult) rfl rfl

/-! Coherence after each operation. -/

theorem Coherent.after_startOn {s t : State} {c : Capture} {rest : List Capture} (hco : Coherent s)
    (hresult : s.result = none) (hs : s.stage = .idle) (hstart : startOn c rest s = .next t) : Coherent t := by
  have hev : s.ev = none := hco.ev_eq_none (by simp [hs])
  obtain ⟨hwf, rfl⟩ := startOn_next.1 hstart
  exact coherent_of_low hwf trivial hev hresult (hco.diagSanity_eq_false hresult)

theorem Coherent.after_locate {s : State} (hco : Coherent s) (hresult : s.result = none) (hs : s.stage = .locate) :
    Coherent (locate s) := by
  have hnotEmit (k : ClassifiedRegs) : s.stage ≠ .emit k := by simp [hs]
  obtain ⟨r, hlocated, hlocate⟩ | ⟨hnone, habort⟩ := locate_cases s
  · exact hlocate ▸ hco.withStage hresult hnotEmit hlocated
  · exact habort ▸ hco.after_raiseAbort hnotEmit (locateCause_ne_eventProduced _) (decodeCapture_of_notLocated hnone)

theorem Coherent.after_load {s t : State} {r : Nat} (hco : Coherent s) (hresult : s.result = none)
    (hs : s.stage = .decode r) (hload : load r s = .next t) : Coherent t := by
  have hlocated : locateFrame s.cap = some r := hco.stageFits hs
  obtain ⟨b0, b1, b2, h0, h1, h2, rfl⟩ := load_next.1 hload
  exact hco.withStage hresult (by simp [hs]) ⟨hlocated, h0, h1, h2⟩

theorem Coherent.after_sanity {s : State} {p : PayloadRegs} (hco : Coherent s) (hresult : s.result = none)
    (hrev : s.rev = .A) (hs : s.stage = .loaded p) : Coherent (sanity p s) := by
  have hnotEmit (k : ClassifiedRegs) : s.stage ≠ .emit k := by simp [hs]
  have hraw : RawAt s.cap p := hco.stageFits hs
  obtain ⟨hzero, habort⟩ | ⟨hnonzero, hsane⟩ := sanity_cases p s
  · exact habort ▸ hco.after_raiseAbort hnotEmit (by decide) (hrev ▸ decodeCapture_of_zero hraw hzero)
  · exact hsane ▸ hco.withStage hresult hnotEmit ⟨hrev, hraw, hnonzero⟩

theorem Coherent.after_invert {s : State} {p : PayloadRegs} (hco : Coherent s) (hresult : s.result = none)
    (hs : s.stage = .sane p) : Coherent (invert p s) := by
  obtain ⟨hrev, hraw, hnonzero⟩ : s.rev = .A ∧ RawAt s.cap p ∧ allZero p.b0 p.b1 p.b2 = false := hco.stageFits hs
  exact hco.withStage hresult (by simp [hs]) ⟨hrev, p, hraw, hnonzero, rfl⟩

/-- The bytes EXTRACT works on are those of CLASSIFY, under the polarity rule (R83, R128, R129). -/
theorem Coherent.commandAt_of_extract {s : State} {p : PayloadRegs} (hco : Coherent s)
    (hs : s.stage = .inverted p ∨ s.rev = .B ∧ (s.stage = .loaded p ∨ s.stage = .sane p)) :
    CommandAt s.rev s.cap ⟨p, extractId p.b0 p.b1 p.b2, extractCmd p.b2⟩ := by
  obtain hs | ⟨hrev, hs | hs⟩ := hs
  · obtain ⟨hrev, q, hraw, hnonzero, rfl⟩ := hco.stageFits hs
    exact ⟨q, hraw, fun _ => hnonzero, by simp [commandRegsOf, polarity, hrev]⟩
  · exact ⟨p, hco.stageFits hs, by simp [hrev], by simp [commandRegsOf, polarity, hrev]⟩
  · obtain ⟨hrevA, -⟩ := hco.stageFits hs
    simp [hrevA] at hrev

theorem Coherent.after_extract {s : State} {p : PayloadRegs} (hco : Coherent s) (hresult : s.result = none)
    (hs : s.stage = .inverted p ∨ s.rev = .B ∧ (s.stage = .loaded p ∨ s.stage = .sane p)) : Coherent (extract p s) := by
  have hnotEmit (k : ClassifiedRegs) : s.stage ≠ .emit k := by
    obtain hs | ⟨-, hs | hs⟩ := hs <;> simp [hs]
  exact hco.withStage hresult hnotEmit (hco.commandAt_of_extract hs)

theorem Coherent.after_exec {s t : State} {c : CommandRegs} (hco : Coherent s) (hresult : s.result = none)
    (hs : s.stage = .classify c) (hexec : exec (Instr.ofCommand s.rev c.id c.cmd) s = .next t) : Coherent t := by
  have hat : CommandAt s.rev s.cap c := hco.stageFits hs
  rw [exec_ofCommand, classifyAs_atHand hs] at hexec
  obtain rfl := Host.Outcome.next.inj hexec
  exact hco.withStage hresult (by simp [hs]) ⟨hat, rfl, rfl, rfl⟩

theorem Coherent.after_guardLabel {s : State} {k : ClassifiedRegs} (hco : Coherent s) (hresult : s.result = none)
    (hs : s.stage = .classified k) : Coherent (guardLabel k s) := by
  have hat : ClassifiedAt s.rev s.cap k := hco.stageFits hs
  obtain ⟨l, hlabel⟩ := hat.exists_label
  obtain ⟨-, hnone, -⟩ | ⟨-, hemit⟩ := guardLabel_cases k s
  · simp [hlabel] at hnone
  · exact hemit ▸ hco.withStage hresult (by simp [hs]) hat

theorem Coherent.after_emitEvent {s t : State} {k : ClassifiedRegs} (hco : Coherent s) (hresult : s.result = none)
    (hs : s.stage = .emit k) (hemit : emitEvent k s = .next t) : Coherent t := by
  have hdiag := hco.diagSanity_eq_false hresult
  obtain ⟨hwf, hfits, -, -, -⟩ := hco
  obtain ⟨l, hlabel, rfl⟩ := emitEvent_next.1 hemit
  refine ⟨hwf, hfits, ?_, resultFits_of_low hresult, fun hup => by simp [hdiag] at hup⟩
  intro e he
  obtain rfl := Option.some.inj he
  exact ⟨hresult, k, l, hs, hlabel, rfl, by simp⟩

theorem Coherent.after_endEmit {s : State} {k : ClassifiedRegs} (hco : Coherent s) (hresult : s.result = none)
    (hs : s.stage = .emit k) (hev : s.ev.isSome = true) : Coherent (endEmit s) := by
  obtain ⟨e, he⟩ := Option.isSome_iff_exists.1 hev
  obtain ⟨houtcome, hlast⟩ := hco.decode_of_eventValid hs he
  have hdiag := hco.diagSanity_eq_false hresult
  obtain ⟨hwf, hfits, -, -, -⟩ := hco
  refine ⟨hwf, hfits, eventFits_of_low rfl, ?_, fun hup => by simp [hdiag] at hup⟩
  intro p hp
  obtain rfl : Ending.eventProduced.port = p := Option.some.inj hp
  exact ⟨by simp [houtcome], by simp, fun _ => hlast⟩

/-- Settles O40: the inversion lemma of the step, with one lemma for each operation it names. -/
theorem everyStepKeepsCoherent : Obligations.EveryStepKeepsCoherent := by
  unfold Obligations.EveryStepKeepsCoherent
  intro s t hco hstep
  obtain ⟨-, rfl⟩ | ⟨-, hresult, rfl⟩ | ⟨-, hresult, hstage⟩ := step_cases hstep
  · exact hco.after_applyReset
  · exact hco.after_finishReturn hresult
  obtain ⟨-, -, rfl⟩ | ⟨c, rest, hs, -, hstart⟩ | ⟨hs, rfl⟩ | ⟨r, hs, hload⟩ | ⟨p, hs, hrev, rfl⟩ | ⟨p, hs, -, rfl⟩ |
    ⟨p, hs, rfl⟩ | ⟨c, hs, hexec⟩ | ⟨k, hs, rfl⟩ | ⟨k, hs, -, hemit⟩ | ⟨k, hs, hev, rfl⟩ := hstage
  · exact hco
  · exact hco.after_startOn hresult hs hstart
  · exact hco.after_locate hresult hs
  · exact hco.after_load hresult hs hload
  · exact hco.after_sanity hresult hrev hs
  · exact hco.after_invert hresult hs
  · exact hco.after_extract hresult hs
  · exact hco.after_exec hresult hs hexec
  · exact hco.after_guardLabel hresult hs
  · exact hco.after_emitEvent hresult hs hemit
  · exact hco.after_endEmit hresult hs hev

/-! No step faults. -/

/-- A stage's operation completes, or it is START on a structure that is no Capture: no third way (R58, R61). -/
theorem Coherent.stage_step_total {s : State} (hco : Coherent s) (hacts : StageActs s) : (∃ t, step s = .next t) ∨
    (step s = .refused .notACapture ∧ s.stage = .idle ∧ ∃ c rest, s.offers = c :: rest ∧ Capture.wf c = false) := by
  cases hs : s.stage with
  | idle =>
    cases hoffers : s.offers with
    | nil => exact .inl ⟨_, step_of_wait hacts hs hoffers⟩
    | cons c rest =>
      cases hwf : Capture.wf c with
      | true => exact .inl ⟨_, step_of_offer hacts hs hoffers hwf⟩
      | false => exact .inr ⟨step_of_noCapture hacts hs hoffers hwf, rfl, c, rest, rfl, hwf⟩
  | locate => exact .inl ⟨_, step_of_locate hacts hs⟩
  | decode r =>
    obtain ⟨row, -, -, h0, h1, h2⟩ := memRead_of_located (hco.stageFits hs)
    exact .inl ⟨_, (step_of_decode hacts hs).trans (load_next.2 ⟨_, _, _, h0, h1, h2, rfl⟩)⟩
  | loaded p =>
    cases hrev : s.rev with
    | A => exact .inl ⟨_, step_of_loaded_A hacts hrev hs⟩
    | B => exact .inl ⟨_, step_of_extract hacts (.inr ⟨hrev, hs⟩)⟩
  | sane p => exact .inl ⟨_, step_of_sane hacts (hco.stageFits hs).1 hs⟩
  | inverted p => exact .inl ⟨_, step_of_extract hacts (.inl hs)⟩
  | classify c => exact .inl ⟨_, step_of_classify hacts hs⟩
  | classified k => exact .inl ⟨_, step_of_guard hacts hs⟩
  | emit k =>
    cases hev : s.ev with
    | none =>
      have hat : ClassifiedAt s.rev s.cap k := hco.stageFits hs
      obtain ⟨l, hlabel⟩ := hat.exists_label
      exact .inl ⟨_, (step_of_emit hacts hs hev).trans (emitEvent_next.2 ⟨l, hlabel, rfl⟩)⟩
    | some e => exact .inl ⟨_, step_of_eventValid hacts hs hev⟩

theorem Coherent.step_total {s : State} (hco : Coherent s) : (∃ t, step s = .next t) ∨
    (step s = .refused .notACapture ∧ s.stage = .idle ∧ ∃ c rest, s.offers = c :: rest ∧ Capture.wf c = false) := by
  cases hrst : s.rst with
  | true => exact .inl ⟨_, step_of_reset hrst⟩
  | false =>
    cases hresult : s.result with
    | some p => exact .inl ⟨_, step_of_result hrst hresult⟩
    | none => exact hco.stage_step_total ⟨hrst, hresult⟩

/-- Settles O41: a step of a coherent machine completes or is that one refusal. -/
theorem coherentMachineNeverFaults : Obligations.CoherentMachineNeverFaults := by
  unfold Obligations.CoherentMachineNeverFaults
  intro s hco
  obtain ⟨t, hnext⟩ | ⟨hrefused, hidle, hoffered⟩ := hco.step_total
  · simp [hnext]
  · refine ⟨fun f hfault => by simp [hrefused] at hfault, fun x hx => ?_⟩
    obtain rfl := Host.Outcome.refused.inj (hrefused.symm.trans hx)
    exact ⟨rfl, hidle, hoffered⟩

/-! Invocations. -/

/-- Settles O42: START, then the run that `concludes_of_locate` gives. -/
theorem invocationComputesDecode : Obligations.InvocationComputesDecode := by
  unfold Obligations.InvocationComputesDecode
  intro s c rest hquiet hoffers hwf
  obtain ⟨n, hn, hrun⟩ := reaches_served hquiet hoffers hwf
  exact ⟨n, hn, hrun, hquiet.served c rest⟩

/-- Inside an invocation and before its event is on the port, the machine concludes as `Decode` says. -/
theorem Coherent.concludes {s : State} (hco : Coherent s) (hacts : StageActs s) (hev : s.ev = none)
    (hs : s.stage ≠ .idle) : ConcludesWithin 10 s := by
  cases hstage : s.stage with
  | idle => exact absurd hstage hs
  | locate => exact concludes_of_locate hacts hev hstage
  | decode r => exact (concludes_of_decode hacts hev hstage (hco.stageFits hstage)).mono (by decide)
  | loaded p => exact (concludes_of_loaded hacts hev hstage (hco.stageFits hstage)).mono (by decide)
  | sane p =>
    obtain ⟨hrev, hraw, hnonzero⟩ := hco.stageFits hstage
    exact (concludes_of_sane hacts hev hrev hstage hraw hnonzero).mono (by decide)
  | inverted p =>
    exact (concludes_of_extract hacts hev (.inl hstage) (hco.commandAt_of_extract (.inl hstage))).mono (by decide)
  | classify c => exact (concludes_of_classify hacts hev hstage (hco.stageFits hstage)).mono (by decide)
  | classified k => exact (concludes_of_classified hacts hev hstage (hco.stageFits hstage)).mono (by decide)
  | emit k => exact (concludes_of_emit hacts hev hstage (hco.stageFits hstage)).mono (by decide)

theorem concluded_quiet {s : State} (hrst : s.rst = false) : Quiet (concluded s) := ⟨rfl, rfl, rfl, rfl, hrst⟩

/-- With the event on the port, two steps are left: `done` rises and falls (R199). -/
theorem runSteps_of_eventValid {s : State} {k : ClassifiedRegs} {e : EventPort} (hacts : StageActs s)
    (hs : s.stage = .emit k) (hev : s.ev = some e) : runSteps 2 s = .next (finishReturn (endEmit s)) := by
  have hreturn := step_of_result (s := endEmit s) hacts.1 (endEmit_result s)
  rw [runSteps_succ 1 (step_of_eventValid hacts hs hev), runSteps_succ 0 hreturn]
  rfl

/-- Settles O44: from every stage at most ten steps conclude the invocation; with the event already on the port, two. -/
theorem everyInvocationEnds : Obligations.EveryInvocationEnds := by
  unfold Obligations.EveryInvocationEnds
  intro s hco hacts hs
  cases hev : s.ev with
  | none =>
    obtain ⟨n, hn, hrun⟩ := hco.concludes hacts hev hs
    exact ⟨n, _, hn, hrun, concluded_quiet hacts.1, rfl, rfl⟩
  | some e =>
    obtain ⟨-, k, l, hstage, -⟩ := hco.eventFits e hev
    obtain ⟨houtcome, -⟩ := hco.decode_of_eventValid hstage hev
    exact ⟨2, _, by decide, runSteps_of_eventValid hacts hstage hev, ⟨rfl, rfl, rfl, rfl, hacts.1⟩, rfl,
      by simp [houtcome]⟩

end Sys2Proof.Machine
end


/-! The reads of the Capture and the locator (spec/20_memory.md, spec/40_frame_locator.md). -/
section
namespace Sys2Proof.Machine

/-- The value of a bit sequence is the sum of its bits times powers of two, the first bit most significant (R55). -/
theorem packNat_eq_sum (bits : List Bool) : packNat bits =
    ((List.range bits.length).map (fun k => (bits.getD k false).toNat * 2 ^ (bits.length - 1 - k))).sum := by
  induction bits using List.reverseRecOn with
  | nil => rfl
  | append_singleton bits b ih =>
    have hshift : (List.range bits.length).map
          (fun k => ((bits ++ [b]).getD k false).toNat * 2 ^ (bits.length - k)) =
        (List.range bits.length).map
          (fun k => 2 * ((bits.getD k false).toNat * 2 ^ (bits.length - 1 - k))) := by
      refine List.map_congr_left fun k hk => ?_
      have hk := List.mem_range.1 hk
      rw [List.getD_append _ _ _ _ hk, show bits.length - k = (bits.length - 1 - k) + 1 by omega, Nat.pow_succ]
      ring
    rw [packNat_append_bit, ih, ← List.sum_map_mul_left, ← hshift, List.length_append, List.length_singleton,
      Nat.add_sub_cancel, List.range_succ, List.map_append, List.sum_append]
    simp

/-- The packed stretch of a row, bit by bit from the row (R55). -/
theorem packNat_stretch {row : Row} {i n : Nat} (h : i + n ≤ row.length) : packNat ((row.drop i).take n) =
    ((List.range n).map (fun k => (row.getD (i + k) false).toNat * 2 ^ (n - 1 - k))).sum := by
  have hlength : ((row.drop i).take n).length = n := by simp; omega
  rw [packNat_eq_sum, hlength]
  refine congrArg List.sum (List.map_congr_left fun k hk => ?_)
  rw [List.getD_eq_getElem?_getD, List.getElem?_take_of_lt (List.mem_range.1 hk), List.getElem?_drop,
    ← List.getD_eq_getElem?_getD]

/-- Settles O16: inside its domain MemRead packs the stretch, whose value is below the power of two of its width. -/
theorem memReadPacksFirstBitMostSignificant : Obligations.MemReadPacksFirstBitMostSignificant := by
  unfold Obligations.MemReadPacksFirstBitMostSignificant
  intro cap r i n row hrow
  refine ⟨fun h => ⟨_, memRead_of_row hrow h, ?_⟩, fun h => memRead_beyond hrow h,
    fun q hq => memRead_of_noRow (List.getElem?_eq_none hq)⟩
  have hlength : ((row.drop i).take n).length = n := by simp; omega
  have hlt : packNat ((row.drop i).take n) < 2 ^ n := by simpa [hlength] using packNat_lt ((row.drop i).take n)
  rw [packBits, BitVec.toNat_ofNat, Nat.mod_eq_of_lt hlt, packNat_stretch h]

/-- Settles O17: `RowEq` is equality of the two rows, and lists are equal exactly bit by bit. -/
theorem rowEqIsEqualityOfEveryBit : Obligations.RowEqIsEqualityOfEveryBit := by
  unfold Obligations.RowEqIsEqualityOfEveryBit
  intro cap r q x y hx hy
  simp only [rowEq_iff, bitAt, hx, hy, Option.bind_some]
  constructor
  · rintro ⟨row, hrowx, hrowy⟩
    obtain rfl := Option.some.inj (hrowx.trans hrowy.symm)
    exact ⟨rfl, fun _ _ => rfl⟩
  · rintro ⟨hlength, hbits⟩
    have hxy : x = y := List.ext_getElem? fun i => by
      by_cases hi : i < x.length
      · exact hbits i hi
      · rw [List.getElem?_eq_none (by omega), List.getElem?_eq_none (by omega)]
    exact ⟨x, rfl, by rw [hxy]⟩

/-- Settles O18: LOCATE is the step, and `locateFrame` answers the least index of a Frame. -/
theorem locateTakesTheLeastFrame : Obligations.LocateTakesTheLeastFrame := by
  unfold Obligations.LocateTakesTheLeastFrame
  intro s r hacts hs hframe hleast
  have hlocated := locateFrame_eq_some.2 ⟨hframe, hleast⟩
  rw [step_of_locate hacts hs, locate, hlocated]

theorem locateCause_of_repeat {cap : Capture} (h : SomeRowRepeats cap) : locateCause cap = .lengthMismatch :=
  if_pos (someRowRepeats_iff.2 h)

theorem locateCause_of_noRepeat {cap : Capture} (h : ¬ SomeRowRepeats cap) : locateCause cap = .noRepeatedFrame :=
  if_neg fun hany => h (someRowRepeats_iff.1 hany)

/-- Settles O20: without a Frame the step is the abort, with the cause of D18. -/
theorem locateCauseSplitsTheFailures : Obligations.LocateCauseSplitsTheFailures := by
  unfold Obligations.LocateCauseSplitsTheFailures
  intro s hacts hs hnone
  rw [step_of_locate hacts hs, locate_of_noFrame hnone]
  exact ⟨fun h => by rw [locateCause_of_repeat h], fun h => by rw [locateCause_of_noRepeat h]⟩

/-! What `Decode` can answer. -/

/-- What `Decode` can answer, said once: the locator's abort, a sanity failure, or the record of what reaches CLASSIFY
(R196). -/
theorem decodeCapture_cases (rev : Rev) (cap : Capture) :
    (locateFrame cap = none ∧ decodeCapture rev cap = (locateCause cap, none)) ∨
    (∃ p, RawAt cap p ∧ rev = .A ∧ allZero p.b0 p.b1 p.b2 = true ∧ decodeCapture rev cap = (.sanityFailure, none)) ∨
    (∃ p, RawAt cap p ∧ ¬ (rev = .A ∧ allZero p.b0 p.b1 p.b2 = true) ∧
      decodeCapture rev cap = (.eventProduced, some (tableRecord rev (commandRegsOf rev p.r p.b0 p.b1 p.b2).id
        (commandRegsOf rev p.r p.b0 p.b1 p.b2).cmd))) := by
  cases hlocated : locateFrame cap with
  | none => exact .inl ⟨rfl, decodeCapture_of_notLocated hlocated⟩
  | some r =>
    obtain ⟨row, -, -, h0, h1, h2⟩ := memRead_of_located hlocated
    have hraw : RawAt cap ⟨r, _, _, _⟩ := ⟨hlocated, h0, h1, h2⟩
    refine .inr ?_
    rw [decodeCapture_of_rawAt hraw, decodeLoaded]
    split
    next hzero => exact .inl ⟨_, hraw, hzero.1, hzero.2, rfl⟩
    next haccepted => exact .inr ⟨_, hraw, haccepted, rfl⟩

/-- Both causes of the locator's abort are its own. -/
theorem locateCause_eq (cap : Capture) : locateCause cap = .lengthMismatch ∨ locateCause cap = .noRepeatedFrame := by
  by_cases h : SomeRowRepeats cap
  · exact .inl (locateCause_of_repeat h)
  · exact .inr (locateCause_of_noRepeat h)

/-- The locator's abort is `Decode`'s answer exactly without a Frame (R113). -/
theorem decodeCapture_abortLength_iff (rev : Rev) (cap : Capture) :
    (decodeCapture rev cap).1.code = .abortLength ↔ locateFrame cap = none := by
  obtain ⟨hnone, hdecode⟩ | ⟨p, hraw, -, -, hdecode⟩ | ⟨p, hraw, -, hdecode⟩ := decodeCapture_cases rev cap
  · rw [hdecode]
    exact iff_of_true (congrArg ResultPort.code (locateCause_port cap)) hnone
  · simp [hdecode, hraw.1, Ending.code]
  · simp [hdecode, hraw.1, Ending.code]

/-- Settles O21: the code says whether LOCATE found a Frame, and without one no record is assembled. -/
theorem nonMatchExactlyWithoutAFrame : Obligations.NonMatchExactlyWithoutAFrame := by
  unfold Obligations.NonMatchExactlyWithoutAFrame
  intro rev cap
  rw [decodeCapture_abortLength_iff, locateFrame_eq_none]
  refine ⟨Iff.rfl, fun hnone => ?_⟩
  rw [decodeCapture_of_notLocated (locateFrame_eq_none.2 hnone)]
  exact ⟨rfl, congrArg ResultPort.events (locateCause_port cap)⟩

/-- The guard of R150 is never what ends an invocation, as every table entry has a label (R29). -/
theorem decodeCapture_ne_unclassifiable (rev : Rev) (cap : Capture) :
    (decodeCapture rev cap).1 ≠ .unclassifiableCommand := by
  obtain ⟨-, hdecode⟩ | ⟨p, -, -, -, hdecode⟩ | ⟨p, -, -, hdecode⟩ := decodeCapture_cases rev cap
  · obtain hcause | hcause := locateCause_eq cap <;> simp [hdecode, hcause]
  · simp [hdecode]
  · simp [hdecode]

/-- Revision B performs no SANITY (R128). -/
theorem decodeCapture_B_ne_sanityFailure (cap : Capture) : (decodeCapture .B cap).1 ≠ .sanityFailure := by
  obtain ⟨-, hdecode⟩ | ⟨p, -, hrev, -, -⟩ | ⟨p, -, -, hdecode⟩ := decodeCapture_cases .B cap
  · obtain hcause | hcause := locateCause_eq cap <;> simp [hdecode, hcause]
  · simp at hrev
  · simp [hdecode]

/-- A record is present exactly on success (R200). -/
theorem decodeCapture_record_iff (rev : Rev) (cap : Capture) :
    (decodeCapture rev cap).2.isSome = true ↔ (decodeCapture rev cap).1 = .eventProduced := by
  obtain ⟨-, hdecode⟩ | ⟨p, -, -, -, hdecode⟩ | ⟨p, -, -, hdecode⟩ := decodeCapture_cases rev cap
  · simp [hdecode, locateCause_ne_eventProduced]
  · simp [hdecode]
  · simp [hdecode]

theorem frameOf_length (rev : Rev) (p : BitVec 24) (sync : Bool) : (frameOf rev p sync).length = 25 := by
  simp [frameOf]

/-- Settles O45: `Decode` answers in one of three ways; for each outcome a Capture of no rows, of two empty rows, or of
one Frame twice. -/
theorem outcomesOfEachRevision : Obligations.OutcomesOfEachRevision := by
  unfold Obligations.OutcomesOfEachRevision
  refine ⟨decodeCapture_ne_unclassifiable .A,
    fun cap => ⟨decodeCapture_ne_unclassifiable .B cap, decodeCapture_B_ne_sanityFailure cap⟩, decodeCapture_record_iff,
    fun rev o ho => ?_, [frameOf .B 0 false, frameOf .B 0 false], twoRows_wf (frameOf_length _ _ _), rfl⟩
  simp only [List.mem_cons, List.not_mem_nil, or_false] at ho
  obtain rfl | rfl | rfl := ho
  · exact ⟨[frameOf rev 1 false, frameOf rev 1 false], twoRows_wf (frameOf_length _ _ _), by cases rev <;> rfl⟩
  · exact ⟨[], rfl, rfl⟩
  · exact ⟨[[], []], by simp [Capture.wf, Config.nrowsMax], rfl⟩

/-- What LOAD reads of a located row is zero exactly where its first 24 bits are (R125, R126). -/
theorem RawAt.allZero_iff {cap : Capture} {p : PayloadRegs} {row : Row} (h : RawAt cap p)
    (hrow : cap[p.r]? = some row) :
    allZero p.b0 p.b1 p.b2 = true ↔ ∀ k < 24, row[k]? = some false := by
  obtain ⟨hlocated, h0, h1, h2⟩ := h
  obtain ⟨row', hrow', hlength, h0', h1', h2'⟩ := memRead_of_located hlocated
  obtain rfl := Option.some.inj (hrow.symm.trans hrow')
  rw [Option.some.inj (h0.symm.trans h0'), Option.some.inj (h1.symm.trans h1'), Option.some.inj (h2.symm.trans h2')]
  exact allZero_byteAt_iff (by omega)

/-- Settles O25: EXTRACT follows LOAD in Revision B; the last clause is `Decode` evaluated on three zero bytes. -/
theorem revisionBTakesBytesAsCaptured : Obligations.RevisionBTakesBytesAsCaptured := by
  unfold Obligations.RevisionBTakesBytesAsCaptured
  exact ⟨fun s p hacts hrev hs => step_of_extract hacts (.inr ⟨hrev, hs⟩), decodeCapture_B_ne_sanityFailure, rfl⟩

/-! The Payload Decoder. -/

theorem getElem?_eq_byteAt {row : Row} {i k : Nat} (h : i + 8 ≤ row.length) (hk : k < 8) :
    row[i + k]? = some ((byteAt row i).getMsbD k) :=
  getElem?_eq_getMsbD_packBits h hk

/-- LOAD of a row of 24 bits or more (R125). -/
theorem step_of_load {s : State} {r : Nat} {row : Row} (hacts : StageActs s) (hs : s.stage = .decode r)
    (hrow : s.cap[r]? = some row) (h : 24 ≤ row.length) :
    step s = .next { s with stage := .loaded ⟨r, byteAt row 0, byteAt row 8, byteAt row 16⟩ } := by
  rw [step_of_decode hacts hs]
  exact load_next.2 ⟨_, _, _, memRead_byte hrow (by omega), memRead_byte hrow (by omega), memRead_byte hrow (by omega),
    rfl⟩

/-- LOAD faults where the last of its three reads has no value (R51). -/
theorem load_fault {r : Nat} {s : State} (h : memRead s.cap r 16 8 = none) : load r s = .fault .noSuchPosition := by
  unfold load
  split
  next h2 => simp [h] at h2
  next => rfl

/-- Settles O22: the three packed stretches of the row; a row that is absent or short has no bits 16 to 23. -/
theorem loadReadsTheThreeBytes : Obligations.LoadReadsTheThreeBytes := by
  unfold Obligations.LoadReadsTheThreeBytes
  intro s r hacts hs
  refine ⟨fun row hrow h => ⟨_, _, _, step_of_load hacts hs hrow h, fun k hk => ⟨?_, ?_, ?_⟩⟩, fun h => ?_⟩
  · simpa using getElem?_eq_byteAt (i := 0) (by omega) hk
  · exact getElem?_eq_byteAt (by omega) hk
  · exact getElem?_eq_byteAt (by omega) hk
  · rw [step_of_decode hacts hs]
    refine load_fault ?_
    cases hrow : s.cap[r]? with
    | none => exact memRead_of_noRow hrow
    | some row => exact memRead_beyond hrow (by have := h row hrow; omega)

/-- The raw payload inverted is the logical payload: `id`, then `cmd` (R83, R84). -/
theorem rawOf_append (rev : Rev) (b0 b1 b2 : Byte) : rawOf rev (b0 ++ b1 ++ b2) =
    payloadOf (extractId (polarity rev b0) (polarity rev b1) (polarity rev b2)) (extractCmd (polarity rev b2)) := by
  rw [payloadOf_extract]
  simpa using rawOf_polarity rev (polarity rev b0) (polarity rev b1) (polarity rev b2)

/-- Format PL24 taken apart (R84). -/
theorem payloadOf_fields (id : BitVec 20) (cmd : BitVec 4) :
    (payloadOf id cmd).extractLsb' 4 20 = id ∧ (payloadOf id cmd).extractLsb' 0 4 = cmd :=
  ⟨BitVec.extractLsb'_append_eq_left, BitVec.extractLsb'_append_eq_right⟩

/-- `DecodePayload` is the fields of the logical payload, but for the refused one (R133). -/
theorem decodePayload_eq (rev : Rev) (raw : BitVec 24) : decodePayload rev raw =
    if rev = .A ∧ raw = 0 then none
    else some ((rawOf rev raw).extractLsb' 4 20, (rawOf rev raw).extractLsb' 0 4) := by
  cases rev with
  | A => simp [decodePayload, rawOf]
  | B => simp [decodePayload, rawOf]

/-- `DecodePayload` of three bytes is what the registers hold at CLASSIFY (R133, R86). -/
theorem decodePayload_append (rev : Rev) (r : Nat) (b0 b1 b2 : Byte) : decodePayload rev (b0 ++ b1 ++ b2) =
    if rev = .A ∧ allZero b0 b1 b2 = true then none
    else some ((commandRegsOf rev r b0 b1 b2).id, (commandRegsOf rev r b0 b1 b2).cmd) := by
  obtain ⟨hid, hcmd⟩ := payloadOf_fields (extractId (polarity rev b0) (polarity rev b1) (polarity rev b2))
    (extractCmd (polarity rev b2))
  have hzero := append_eq_zero_iff b0 b1 b2
  simp only [decodePayload_eq, rawOf_append, hid, hcmd, commandRegsOf]
  exact if_congr (and_congr_right fun _ => hzero) rfl rfl

/-- From the loaded bytes at most three steps lead to CLASSIFY: SANITY, INVERT and EXTRACT in Revision A, EXTRACT in
Revision B (R133). -/
theorem reaches_classify {s : State} {p : PayloadRegs} (hacts : StageActs s) (hs : s.stage = .loaded p)
    (haccepted : ¬ (s.rev = .A ∧ allZero p.b0 p.b1 p.b2 = true)) :
    ReachesWithin 3 s { s with stage := .classify (commandRegsOf s.rev p.r p.b0 p.b1 p.b2) } := by
  obtain hrev | hrev : s.rev = .A ∨ s.rev = .B := by cases s.rev <;> simp
  · have hpass : sanity p s = { s with stage := .sane p } := by
      obtain ⟨hzero, -⟩ | ⟨-, hpass⟩ := sanity_cases p s
      · exact absurd ⟨hrev, hzero⟩ haccepted
      · exact hpass
    have hregs : commandRegsOf s.rev p.r p.b0 p.b1 p.b2 =
        ⟨⟨p.r, invertByte p.b0, invertByte p.b1, invertByte p.b2⟩,
          extractId (invertByte p.b0) (invertByte p.b1) (invertByte p.b2), extractCmd (invertByte p.b2)⟩ := by
      simp [commandRegsOf, polarity, hrev]
    rw [hregs]
    have hfirst := (step_of_loaded_A hacts hrev hs).trans (congrArg _ hpass)
    exact .head hfirst
      (.head (step_of_sane hacts hrev rfl) (.head (step_of_extract hacts (.inl rfl)) (.refl 0 _)))
  · have hregs : commandRegsOf s.rev p.r p.b0 p.b1 p.b2 = ⟨p, extractId p.b0 p.b1 p.b2, extractCmd p.b2⟩ := by
      simp [commandRegsOf, polarity, hrev]
    rw [hregs]
    exact .head (step_of_extract hacts (.inr ⟨hrev, hs⟩)) (.refl 2 _)

/-- SANITY aborts exactly where `DecodePayload` has no value (R133). -/
theorem step_of_loaded_aborts_iff {s : State} {p : PayloadRegs} (hacts : StageActs s) (hs : s.stage = .loaded p) :
    step s = .next (raiseAbort .sanityFailure s) ↔ s.rev = .A ∧ allZero p.b0 p.b1 p.b2 = true := by
  obtain ⟨hrst, hresult⟩ := hacts
  cases hrev : s.rev with
  | A =>
    rw [step_of_loaded_A ⟨hrst, hresult⟩ hrev hs]
    obtain ⟨hzero, habort⟩ | ⟨hnonzero, hpass⟩ := sanity_cases p s
    · simp [hzero, habort]
    · refine iff_of_false (fun h => ?_) (by simp [hnonzero])
      simpa [hpass, hresult] using congrArg State.result (Host.Outcome.next.inj h)
  | B =>
    rw [step_of_extract ⟨hrst, hresult⟩ (.inr ⟨hrev, hs⟩)]
    refine iff_of_false (fun h => ?_) (by simp)
    simpa [hresult] using congrArg State.result (Host.Outcome.next.inj h)

/-- Settles O28: LOAD packs the row's first 24 bits; from there SANITY and the way to CLASSIFY follow `DecodePayload`,
which is the fields of the inverted or plain bytes. -/
theorem payloadDecoderIsDecodePayload : Obligations.PayloadDecoderIsDecodePayload := by
  unfold Obligations.PayloadDecoderIsDecodePayload
  refine ⟨fun s r row hacts hs hrow h => ⟨_, step_of_load hacts hs hrow h, rfl, byteAt_append h⟩,
    fun s p hacts hs => ?_, decodePayload_append⟩
  rw [step_of_loaded_aborts_iff hacts hs, decodePayload_append s.rev p.r]
  refine ⟨by simp, fun id cmd hsome => ?_⟩
  split at hsome
  next => cases hsome
  next haccepted =>
    obtain ⟨n, hn, hrun⟩ := reaches_classify hacts hs haccepted
    obtain ⟨rfl, rfl⟩ := Prod.mk.inj (Option.some.inj hsome)
    exact ⟨n, _, hn, hrun, rfl⟩

/-- Settles O2: LOAD, then the way to CLASSIFY, where the command at hand is the one the decoder read. -/
theorem locatedFrameRunsItsCommand : Obligations.LocatedFrameRunsItsCommand := by
  unfold Obligations.LocatedFrameRunsItsCommand
  intro s r row i hacts hs hrow hdecode
  obtain ⟨hlength, haccepted, rfl⟩ := decodeRow_ok hdecode
  have hload := step_of_load hacts hs hrow (by omega)
  obtain ⟨n, hn, hrun⟩ := ReachesWithin.head hload (reaches_classify hacts rfl haccepted)
  exact ⟨n, _, hn, hrun, (commandOf_wellFormed_iff _ _ _ _).2 haccepted,
    step_of_command (s := { s with stage := .classify (commandRegsOf s.rev r _ _ _) }) hacts rfl⟩

end Sys2Proof.Machine
end


/-! The commands, the record and the field arithmetic (spec/41_payload_decoder.md section 2, files 42 to 44). -/
section
namespace Sys2Proof.Machine

/-- Settles O9: all a command can do is move `stage` from `classify` to `classified` over the same registers. -/
theorem commandsWriteOnlyTheirRegisters : Obligations.CommandsWriteOnlyTheirRegisters := by
  unfold Obligations.CommandsWriteOnlyTheirRegisters
  intro i s t h
  obtain ⟨c, l, f, v, hs, -, rfl⟩ := exec_next h
  simp [State.pc, hs, Stage.r?, Stage.payload?, Stage.command?, Stage.classified?]

/-- Settles O10: a command that completes is the one at hand, and one that does not complete is refused. -/
theorem commandNotAtHandIsRefused : Obligations.CommandNotAtHandIsRefused := by
  unfold Obligations.CommandNotAtHandIsRefused
  refine ⟨fun i s hother => ?_, fun i s f hfault => ?_⟩
  · obtain ⟨t, hnext⟩ | hrefused := exec_total i s
    · obtain ⟨c, l, f, v, hs, hi, -⟩ := exec_next hnext
      exact absurd hi.symm (hother c hs)
    · exact hrefused
  · obtain ⟨t, hnext⟩ | hrefused := exec_total i s
    · simp [hnext] at hfault
    · simp [hrefused] at hfault

/-- Settles O11: each rule is the shared write with its table entry. -/
theorem commandWritesItsTableEntry : Obligations.CommandWritesItsTableEntry := by
  unfold Obligations.CommandWritesItsTableEntry
  intro s c hs
  rw [exec_ofCommand, classifyAs_atHand hs]

/-- At 8 bits, inversion is the complement to 255 (R131). -/
theorem invertByte_toNat (b : Byte) : (invertByte b).toNat = 255 - b.toNat := by
  have hnot : invertByte b = ~~~b := BitVec.xor_allOnes
  rw [hnot, BitVec.toNat_not]

/-- Three bytes side by side, without the lower half of the third (R129, R131). -/
theorem extractId_toNat (b0 b1 b2 : Byte) :
    (extractId b0 b1 b2).toNat = b0.toNat * 4096 + b1.toNat * 16 + b2.toNat / 16 := by
  have h1 := b1.isLt
  have h2 := b2.isLt
  rw [extractId_eq_append, BitVec.toNat_append, BitVec.toNat_append, BitVec.extractLsb'_toNat,
    ← Nat.shiftLeft_add_eq_or_of_lt h1, ← Nat.shiftLeft_add_eq_or_of_lt (Nat.mod_lt _ (by decide))]
  simp only [Nat.shiftLeft_eq, Nat.shiftRight_eq_div_pow]
  omega

/-- Settles O27: each shift stays below its bound, so the terms are what they multiply and divide to. -/
theorem fieldArithmeticLosesNoBit : Obligations.FieldArithmeticLosesNoBit := by
  unfold Obligations.FieldArithmeticLosesNoBit
  intro b0 b1 b2
  have h0 := b0.isLt
  have h1 := b1.isLt
  have h2 := b2.isLt
  refine ⟨invertByte_invertByte b0, invertByte_toNat b0, ?_, ?_, ?_, extractId_toNat b0 b1 b2, ?_⟩
  · simp [Nat.shiftLeft_eq]
    omega
  · simp [Nat.shiftLeft_eq]
    omega
  · simp [Nat.shiftRight_eq_div_pow]
    omega
  · simp [extractCmd_eq_low]

/-- Settles O31: `emitEvent`, `endEmit` and `finishReturn`, one after another. -/
theorem eventPortIsRaisedOnceThenDone : Obligations.EventPortIsRaisedOnceThenDone := by
  unfold Obligations.EventPortIsRaisedOnceThenDone
  intro s k l hacts hs hev hlabel
  have hfirst := (step_of_emit hacts hs hev).trans (emitEvent_next.2 ⟨l, hlabel, rfl⟩)
  exact ⟨_, _, _, hfirst, step_of_eventValid hacts hs rfl, step_of_result hacts.1 rfl, rfl, hacts.2, rfl, rfl, rfl, rfl,
    rfl⟩

theorem revBit_injective : Function.Injective revBit := Function.LeftInverse.injective revOfBit_revBit

theorem StateLabel.number_injective : Function.Injective StateLabel.number :=
  Function.LeftInverse.injective StateLabel.ofNumber_number

theorem FieldSel.number_injective : Function.Injective FieldSel.number :=
  Function.LeftInverse.injective FieldSel.ofNumber_number

/-- Settles O32: each number on the port is decoded by the tables of R30, so none is shared by two registers' values. -/
theorem eventPortCarriesTheWholeRecord : Obligations.EventPortCarriesTheWholeRecord := by
  unfold Obligations.EventPortCarriesTheWholeRecord
  refine ⟨recordOfPort_eventPort, fun rev rev' id id' cmd cmd' l l' f f' v v' h => ?_⟩
  obtain ⟨hrev, hid, hcmd, hf, hv, hl⟩ := EventPort.mk.inj h
  exact ⟨revBit_injective hrev, hid, hcmd, StateLabel.number_injective hl, FieldSel.number_injective hf, hv⟩

/-! The records of the Command Tables. -/

/-- The conditional field of every table entry: at most one pair, in its place in the schema, an integer 0 only under
`opened` (R140, R160, R187, R188). -/
theorem condField_tableEntry (rev : Rev) (cmd : BitVec 4) :
    let field := condField (entryFsel (tableEntry rev cmd)) (entryFval (tableEntry rev cmd))
    ([Key.model, .id, .cmd] ++ field.map Prod.fst ++ [Key.state]).Sublist (schema rev) ∧ field.length ≤ 1 ∧
      ∀ e ∈ field, e.2 = .integer 0 → e.1 = .opened := by
  cases rev with
  | A => revert cmd; decide
  | B => revert cmd; decide

/-- Settles O53: the keys around the conditional field are fixed, and neither `id` nor `cmd` is a plain integer. -/
theorem recordsFollowTheSchema : Obligations.RecordsFollowTheSchema := by
  unfold Obligations.RecordsFollowTheSchema
  intro rev id cmd
  obtain ⟨hschema, hlength, hzero⟩ := condField_tableEntry rev cmd
  have hkeys : (tableRecord rev id cmd).map Prod.fst = [.model, .id, .cmd] ++
      (condField (entryFsel (tableEntry rev cmd)) (entryFval (tableEntry rev cmd))).map Prod.fst ++ [.state] := by
    simp [tableRecord, eventRecord]
  refine ⟨hkeys ▸ hschema, ⟨_, hkeys, by simpa using hlength⟩, fun k hk => ?_⟩
  have hfield : (k, Value.integer 0) ∈ condField (entryFsel (tableEntry rev cmd)) (entryFval (tableEntry rev cmd)) := by
    simpa [tableRecord, eventRecord] using hk
  exact hzero _ hfield rfl

/-! The two revisions side by side. -/

/-- Table A at the complemented code and Table B at the code agree on the label (R96). -/
theorem tableLabels_complementary (c : BitVec 4) :
    entryLabel (tableEntry .A (c ^^^ 0xF)) = entryLabel (tableEntry .B c) := by
  revert c
  decide

/-- Inverting the bytes complements the extracted fields (R83, R96). -/
theorem extract_invertByte (b0 b1 b2 : Byte) :
    extractId (invertByte b0) (invertByte b1) (invertByte b2) = extractId b0 b1 b2 ^^^ 0xfffff ∧
      extractCmd (invertByte b2) = extractCmd b2 ^^^ 0xf := by
  have hones : (0xFFFFFF#24 : BitVec 24) = (0xfffff#20 ++ 0xf#4 : BitVec 24) := by decide
  have hraw : rawOf .A (payloadOf (extractId b0 b1 b2) (extractCmd b2)) =
      payloadOf (extractId (invertByte b0) (invertByte b1) (invertByte b2)) (extractCmd (invertByte b2)) := by
    rw [payloadOf_extract, rawOf_append]
    rfl
  rw [rawOf, hones, payloadOf, BitVec.xor_append] at hraw
  obtain ⟨hid, hcmd⟩ := bitVec_append_inj hraw
  exact ⟨hid.symm, hcmd.symm⟩

/-- The state label closes every record (R181). -/
theorem tableRecord_getLast? (rev : Rev) (id : BitVec 20) (cmd : BitVec 4) :
    (tableRecord rev id cmd).getLast? = some (.state, .text (entryLabel (tableEntry rev cmd)).text) :=
  List.getLast?_concat

/-- Settles O52: both revisions extract from the same three raw bytes, Revision A from their complement. -/
theorem revisionsAreComplementary : Obligations.RevisionsAreComplementary := by
  unfold Obligations.RevisionsAreComplementary
  refine ⟨tableLabels_complementary, fun cap a hA => ?_⟩
  have hdecodeA := decodeCapture_of_commandAt hA
  obtain ⟨p, hraw, -, rfl⟩ := hA
  have hB : CommandAt .B cap (commandRegsOf .B p.r p.b0 p.b1 p.b2) := ⟨p, hraw, by simp, rfl⟩
  have hdecodeB := decodeCapture_of_commandAt hB
  obtain ⟨hid, hcmd⟩ := extract_invertByte p.b0 p.b1 p.b2
  refine ⟨_, hB, hid, hcmd, by rw [hdecodeA], by rw [hdecodeB], ?_⟩
  have hlabel : entryLabel (tableEntry .A (extractCmd (invertByte p.b2))) =
      entryLabel (tableEntry .B (extractCmd p.b2)) := by
    rw [hcmd, tableLabels_complementary]
  simp [hdecodeA, hdecodeB, tableRecord_getLast?, commandRegsOf, polarity, hlabel]

end Sys2Proof.Machine
end


/-! What a step does to the sequencer, the ports and the lists around the block. -/
section
namespace Sys2Proof.Machine

/-- The effects a step can have, told by what it does to the ports and the lists: every operation inside the block that
touches neither only moves `stage`. -/
inductive StepEffect (s : State) : State → Prop where
  /-- The reset (R245). -/
  | reset (hrst : s.rst = true) : StepEffect s (applyReset s)
  /-- The end of the result handshake (R199). -/
  | handshakeEnds (hresult : s.result.isSome = true) : StepEffect s (finishReturn s)
  /-- START (R195). -/
  | starts (hresult : s.result = none) (hs : s.stage = .idle) (c : Capture) (rest : List Capture)
      (hoffers : s.offers = c :: rest) : StepEffect s { s with cap := c, offers := rest, stage := .locate }
  /-- An operation on the working registers alone, or waiting in IDLE. -/
  | moves (hresult : s.result = none) (st : Stage) (hpc : (s.pc, { s with stage := st }.pc) ∈ pcTransfers)
      (hidle : { s with stage := st }.pc = .idle → s.pc = .idle) : StepEffect s { s with stage := st }
  /-- An abort (R227). -/
  | aborts (hresult : s.result = none) (cause : Ending) (hcause : cause ≠ .eventProduced) :
      StepEffect s (raiseAbort cause s)
  /-- The hand-over of the record, `ev_valid` rising (R186). -/
  | emits (hresult : s.result = none) (k : ClassifiedRegs) (l : StateLabel) (hs : s.stage = .emit k)
      (hev : s.ev = none) :
      StepEffect s { s with
        ev := some (eventPort s.rev k.command.id k.command.cmd l k.fsel k.fval)
        sink := s.sink ++ [eventRecord s.rev k.command.id k.command.cmd l k.fsel k.fval] }
  /-- `ev_valid` falling, `done` rising (R186, R199). -/
  | succeeds (hresult : s.result = none) (k : ClassifiedRegs) (hs : s.stage = .emit k) (hev : s.ev.isSome = true) :
      StepEffect s (endEmit s)

/-- The inversion lemma of the step, in terms of its effects. -/
theorem StepEffect.of_step {s t : State} (hstep : step s = .next t) : StepEffect s t := by
  obtain ⟨hrst, rfl⟩ | ⟨-, hresult, rfl⟩ | ⟨-, hresult, hstage⟩ := step_cases hstep
  · exact .reset hrst
  · exact .handshakeEnds hresult
  obtain ⟨hs, -, rfl⟩ | ⟨c, rest, hs, hoffers, hstart⟩ | ⟨hs, rfl⟩ | ⟨r, hs, hload⟩ | ⟨p, hs, -, rfl⟩ |
    ⟨p, hs, -, rfl⟩ | ⟨p, hs, rfl⟩ | ⟨c, hs, hexec⟩ | ⟨k, hs, rfl⟩ | ⟨k, hs, hev, hemit⟩ | ⟨k, hs, hev, rfl⟩ := hstage
  · exact .moves hresult t.stage (by simp [State.pc, hs, pcTransfers]) id
  · obtain ⟨-, rfl⟩ := startOn_next.1 hstart
    exact .starts hresult hs c rest hoffers
  · obtain ⟨r, -, hlocate⟩ | ⟨-, habort⟩ := locate_cases s
    · exact hlocate ▸ .moves hresult _ (by simp [State.pc, hs, pcTransfers]) (by simp [State.pc])
    · exact habort ▸ .aborts hresult _ (locateCause_ne_eventProduced _)
  · obtain ⟨b0, b1, b2, -, -, -, rfl⟩ := load_next.1 hload
    exact .moves hresult _ (by simp [State.pc, hs, pcTransfers]) (by simp [State.pc])
  · obtain ⟨-, habort⟩ | ⟨-, hsane⟩ := sanity_cases p s
    · exact habort ▸ .aborts hresult _ (by decide)
    · exact hsane ▸ .moves hresult _ (by simp [State.pc, hs, pcTransfers]) (by simp [State.pc])
  · exact .moves hresult _ (by simp [State.pc, hs, pcTransfers]) (by simp [State.pc])
  · have hpc : s.pc = .decode := by
      obtain hs | ⟨-, hs | hs⟩ := hs <;> simp [State.pc, hs]
    exact .moves hresult _ (by rw [hpc]; simp [State.pc, pcTransfers]) (by simp [State.pc])
  · obtain ⟨c, l, f, v, -, -, rfl⟩ := exec_next hexec
    exact .moves hresult _ (by simp [State.pc, hs, pcTransfers]) (by simp [State.pc])
  · obtain ⟨-, -, habort⟩ | ⟨-, hemit⟩ := guardLabel_cases k s
    · exact habort ▸ .aborts hresult _ (by decide)
    · exact hemit ▸ .moves hresult _ (by simp [State.pc, hs, pcTransfers]) (by simp [State.pc])
  · obtain ⟨l, -, rfl⟩ := emitEvent_next.1 hemit
    exact .emits hresult k l hs hev
  · exact .succeeds hresult k hs hev

/-- Settles O48: START is the one operation that touches what the block is given, and it takes the first offer. -/
theorem strapIsNeverWritten : Obligations.StrapIsNeverWritten := by
  unfold Obligations.StrapIsNeverWritten
  intro s t hstep
  obtain ⟨hrev, -, hoffers⟩ | ⟨hidle, c, rest, hoffers, hstart⟩ := step_sameInputs_or_start hstep
  · exact ⟨hrev, .inl hoffers⟩
  · obtain ⟨-, rfl⟩ := startOn_next.1 hstart
    exact ⟨rfl, .inr ⟨hidle, c, hoffers⟩⟩

theorem pc_self_mem_transfers (p : Pc) : (p, p) ∈ pcTransfers := by
  cases p <;> decide

theorem pc_idle_mem_transfers (p : Pc) : (p, Pc.idle) ∈ pcTransfers := by
  cases p <;> decide

theorem Pc.number_le_four (p : Pc) : p.number.toNat ≤ 4 := by
  cases p <;> decide

/-- A step that leaves `pc` as it is follows the transfers (R198). -/
theorem transfers_of_same_pc {p q : Pc} (h : q = p) (b : Prop) :
    (p, q) ∈ pcTransfers ∧ (q = .idle → p ≠ .idle → b) := by
  subst h
  exact ⟨pc_self_mem_transfers q, fun hidle hne => absurd hidle hne⟩

/-- Settles O49, by the effects of a step: only the end of a handshake goes back to IDLE; aborts and the two steps of
EMIT leave `pc` as it is. -/
theorem sequencerFollowsTheTransfers : Obligations.SequencerFollowsTheTransfers := by
  unfold Obligations.SequencerFollowsTheTransfers
  intro s t hstep hrst
  rw [← and_assoc]
  refine ⟨?_, t.pc.number_le_four⟩
  cases StepEffect.of_step hstep with
  | reset hreset => simp [hrst] at hreset
  | handshakeEnds hresult => exact ⟨pc_idle_mem_transfers s.pc, fun _ _ => hresult⟩
  | starts _ hs c rest _ => exact ⟨by simp [State.pc, hs, pcTransfers], fun h => by simp [State.pc] at h⟩
  | moves _ st hpc hidle => exact ⟨hpc, fun hto hfrom => absurd (hidle hto) hfrom⟩
  | aborts _ cause _ => exact transfers_of_same_pc rfl _
  | emits _ k l _ _ => exact transfers_of_same_pc rfl _
  | succeeds _ k _ _ => exact transfers_of_same_pc rfl _

/-- Settles O50, by the effects of a step: `emits` is the one that gives the sink a record; `aborts` and `succeeds` give
the dispatcher a result, and only the second reports EventProduced. -/
theorem handshakesHandOverOnce : Obligations.HandshakesHandOverOnce := by
  unfold Obligations.HandshakesHandOverOnce
  intro s t hstep
  cases StepEffect.of_step hstep with
  | reset _ => exact ⟨.inl rfl, .inl rfl, fun _ p hp => by simp at hp⟩
  | handshakeEnds _ => exact ⟨.inl rfl, .inl rfl, fun _ p hp => by simp at hp⟩
  | starts hresult _ c rest _ => exact ⟨.inl rfl, .inl rfl, fun _ p hp => by simp [hresult] at hp⟩
  | moves hresult st _ _ => exact ⟨.inl rfl, .inl rfl, fun _ p hp => by simp [hresult] at hp⟩
  | aborts hresult cause hcause =>
    refine ⟨.inl rfl, .inr ⟨_, hresult, rfl, rfl⟩, fun _ p hp hsuccess => ?_⟩
    obtain rfl : cause.port = p := Option.some.inj hp
    exact absurd hsuccess hcause
  | emits hresult k l hs hev =>
    exact ⟨.inr ⟨_, by simp [State.pc, hs], hev, rfl, by simp⟩, .inl rfl, fun _ p hp => by simp [hresult] at hp⟩
  | succeeds hresult k _ hev => exact ⟨.inl rfl, .inr ⟨_, hresult, rfl, rfl⟩, fun _ p _ _ => ⟨hev, rfl⟩⟩

/-- The port of a sanity failure is that of no other outcome (R31). -/
theorem port_eq_sanityFailure_iff (o : Ending) : o.port = ⟨.sanityFailure, .failSanity, 0#1⟩ ↔ o = .sanityFailure := by
  constructor
  · exact fun h => congrArg ResultPort.outcome h
  · rintro rfl
    rfl

/-- While a result stands, the next step lowers the diagnostic, by a reset or by the end of the handshake (R35). -/
theorem step_lowers_diagnostic {s : State} (hresult : s.result.isSome = true) :
    ∃ t, step s = .next t ∧ t.diagSanity = false := by
  obtain ⟨p, hp⟩ := Option.isSome_iff_exists.1 hresult
  cases hrst : s.rst with
  | true => exact ⟨_, step_of_reset hrst, rfl⟩
  | false => exact ⟨_, step_of_result hrst hp, rfl⟩

/-- Settles O54, by the effects of a step: an abort alone raises the diagnostic, and only for the sanity failure. -/
theorem diagnosticPulsesOnlyOnSanityFailure : Obligations.DiagnosticPulsesOnlyOnSanityFailure := by
  unfold Obligations.DiagnosticPulsesOnlyOnSanityFailure
  intro s t hstep hdiag
  refine ⟨?_, step_lowers_diagnostic⟩
  cases StepEffect.of_step hstep with
  | reset _ => simp
  | handshakeEnds _ => simp
  | starts hresult _ c rest _ => simp [hdiag, hresult]
  | moves hresult st _ _ => simp [hdiag, hresult]
  | aborts hresult cause _ => simp [hresult, port_eq_sanityFailure_iff, and_comm]
  | emits hresult k l _ _ => simp [hdiag, hresult]
  | succeeds _ k _ _ => simp [hdiag, port_eq_sanityFailure_iff]

/-- A step that raises a sanity failure is the abort of SANITY (R126, R218). -/
theorem step_raises_sanityFailure {s t : State} {p : ResultPort} (hstep : step s = .next t) (hlow : s.result = none)
    (hhigh : t.result = some p) (hp : p.outcome = .sanityFailure) : t = raiseAbort .sanityFailure s := by
  cases StepEffect.of_step hstep with
  | reset _ => simp at hhigh
  | handshakeEnds _ => simp at hhigh
  | starts _ _ c rest _ => simp [hlow] at hhigh
  | moves _ st _ _ => simp [hlow] at hhigh
  | aborts _ cause _ =>
    obtain rfl : cause.port = p := Option.some.inj hhigh
    obtain rfl : cause = .sanityFailure := hp
    rfl
  | emits _ k l _ _ => simp [hlow] at hhigh
  | succeeds _ k _ _ =>
    obtain rfl : Ending.eventProduced.port = p := Option.some.inj hhigh
    cases hp

/-- `Decode` fails the sanity check exactly on three zero raw bytes in Revision A (R126, R196). -/
theorem decodeCapture_sanityFailure_iff (rev : Rev) (cap : Capture) : (decodeCapture rev cap).1 = .sanityFailure ↔
    rev = .A ∧ ∃ p, RawAt cap p ∧ allZero p.b0 p.b1 p.b2 = true := by
  constructor
  · intro h
    obtain ⟨-, hdecode⟩ | ⟨p, hraw, hrev, hzero, -⟩ | ⟨p, -, -, hdecode⟩ := decodeCapture_cases rev cap
    · obtain hcause | hcause := locateCause_eq cap <;> simp [hdecode, hcause] at h
    · exact ⟨hrev, p, hraw, hzero⟩
    · simp [hdecode] at h
  · rintro ⟨rfl, p, hraw, hzero⟩
    rw [decodeCapture_of_zero hraw hzero]

/-- Three zero raw bytes are 24 zero bits of the located row (R125, R218). -/
theorem exists_rawAt_zero_iff (cap : Capture) : (∃ p, RawAt cap p ∧ allZero p.b0 p.b1 p.b2 = true) ↔
    ∃ r row, locateFrame cap = some r ∧ cap[r]? = some row ∧ ∀ k < 24, row[k]? = some false := by
  constructor
  · rintro ⟨p, hraw, hzero⟩
    obtain ⟨row, hrow, -⟩ := memRead_of_located hraw.1
    exact ⟨p.r, row, hraw.1, hrow, (hraw.allZero_iff hrow).1 hzero⟩
  · rintro ⟨r, row, hlocated, hrow, hbits⟩
    obtain ⟨row', -, -, h0, h1, h2⟩ := memRead_of_located hlocated
    have hraw : RawAt cap ⟨r, _, _, _⟩ := ⟨hlocated, h0, h1, h2⟩
    exact ⟨_, hraw, (hraw.allZero_iff hrow).2 hbits⟩

/-- Settles O46: `Decode` on the raw bytes, which are the located row's first 24 bits; and the abort of SANITY. -/
theorem sanityFailureExactlyOnZeroPayload : Obligations.SanityFailureExactlyOnZeroPayload := by
  unfold Obligations.SanityFailureExactlyOnZeroPayload
  refine ⟨fun rev cap => by rw [decodeCapture_sanityFailure_iff, exists_rawAt_zero_iff], fun rev cap h => ?_, rfl,
    fun s t p hstep hlow hhigh hp => ?_⟩
  · obtain ⟨rfl, p, hraw, hzero⟩ := (decodeCapture_sanityFailure_iff rev cap).1 h
    rw [decodeCapture_of_zero hraw hzero]
  · rw [step_raises_sanityFailure hstep hlow hhigh hp]
    exact ⟨rfl, rfl, rfl⟩

end Sys2Proof.Machine
end


/-! No interference: by what was received earlier, and between instances. -/
section
namespace Sys2Proof.Machine

/-! What the sink and the dispatcher hold is written at its end and read nowhere (R20, R22). -/

/-- The machine with earlier records and results before those it holds. -/
def withEarlier (recs : List EventRecord) (res : List ResultPort) (s : State) : State :=
  { s with sink := recs ++ s.sink, results := res ++ s.results }

/-- A function on the next state, where there is one; a stop stays the same. -/
def mapNext (f : State → State) : Host.Outcome State Fault Refusal → Host.Outcome State Fault Refusal
  | .next s => .next (f s)
  | .fault r => .fault r
  | .refused r => .refused r

section
variable (recs : List EventRecord) (res : List ResultPort) (s : State)

@[simp] theorem withEarlier_rev : (withEarlier recs res s).rev = s.rev := rfl

@[simp] theorem withEarlier_stage : (withEarlier recs res s).stage = s.stage := rfl

@[simp] theorem withEarlier_cap : (withEarlier recs res s).cap = s.cap := rfl

theorem nextOperation_withEarlier : nextOperation (withEarlier recs res s) = nextOperation s := rfl

theorem raiseDone_withEarlier (o : Ending) :
    raiseDone o (withEarlier recs res s) = withEarlier recs res (raiseDone o s) := by
  simp [raiseDone, withEarlier]

theorem raiseAbort_withEarlier (cause : Ending) :
    raiseAbort cause (withEarlier recs res s) = withEarlier recs res (raiseAbort cause s) :=
  raiseDone_withEarlier recs res { s with diagSanity := cause == .sanityFailure && Config.verbose } cause

theorem startOn_withEarlier (c : Capture) (rest : List Capture) :
    startOn c rest (withEarlier recs res s) = mapNext (withEarlier recs res) (startOn c rest s) := by
  unfold startOn
  split
  next => rfl
  next => rfl

theorem locate_withEarlier : locate (withEarlier recs res s) = withEarlier recs res (locate s) := by
  simp only [locate, withEarlier_cap]
  split
  next => rfl
  next => exact raiseAbort_withEarlier recs res s _

theorem load_withEarlier (r : Nat) : load r (withEarlier recs res s) = mapNext (withEarlier recs res) (load r s) := by
  simp only [load, withEarlier_cap]
  split
  next => rfl
  next => rfl

theorem sanity_withEarlier (p : PayloadRegs) :
    sanity p (withEarlier recs res s) = withEarlier recs res (sanity p s) := by
  unfold sanity
  split
  next => exact raiseAbort_withEarlier recs res s _
  next => rfl

theorem classifyAs_withEarlier (rev : Rev) (code : BitVec 4) (id : BitVec 20) (l : StateLabel) (f : FieldSel)
    (v : BitVec 2) : classifyAs rev code id l f v (withEarlier recs res s) =
      mapNext (withEarlier recs res) (classifyAs rev code id l f v s) := by
  cases hs : s.stage with
  | classify c =>
    by_cases hhand : s.rev = rev ∧ c.cmd = code ∧ c.id = id
    · simp [classifyAs, hs, hhand, mapNext, withEarlier]
    · simp [classifyAs, hs, hhand, mapNext]
  | _ => simp [classifyAs, hs, mapNext]

theorem exec_withEarlier (i : Instr) :
    exec i (withEarlier recs res s) = mapNext (withEarlier recs res) (exec i s) := by
  rw [← Instr.ofCommand_fields i, exec_ofCommand, exec_ofCommand, classifyAs_withEarlier]

theorem guardLabel_withEarlier (k : ClassifiedRegs) :
    guardLabel k (withEarlier recs res s) = withEarlier recs res (guardLabel k s) := by
  by_cases habort : s.rev = .A ∧ k.label = none
  · simp [guardLabel, habort, raiseAbort_withEarlier]
  · simp [guardLabel, habort, withEarlier]

theorem emitEvent_withEarlier (k : ClassifiedRegs) :
    emitEvent k (withEarlier recs res s) = mapNext (withEarlier recs res) (emitEvent k s) := by
  unfold emitEvent
  split
  next => simp [mapNext, withEarlier]
  next => rfl

theorem endEmit_withEarlier : endEmit (withEarlier recs res s) = withEarlier recs res (endEmit s) :=
  raiseDone_withEarlier recs res { s with ev := none } .eventProduced

/-- What was received earlier stands before what a step adds, and the step does not depend on it (R20, R22). -/
theorem step_withEarlier : step (withEarlier recs res s) = mapNext (withEarlier recs res) (step s) := by
  unfold step
  rw [nextOperation_withEarlier]
  cases nextOperation s with
  | reset => rfl
  | finishReturn => rfl
  | wait => rfl
  | start c rest => exact startOn_withEarlier recs res s c rest
  | locate => exact congrArg _ (locate_withEarlier recs res s)
  | load r => exact load_withEarlier recs res s r
  | sanity p => exact congrArg _ (sanity_withEarlier recs res s p)
  | invert p => rfl
  | extract p => rfl
  | command i => exact exec_withEarlier recs res s i
  | guardLabel k => exact congrArg _ (guardLabel_withEarlier recs res s k)
  | emitEvent k => exact emitEvent_withEarlier recs res s k
  | endEmit => exact congrArg _ (endEmit_withEarlier recs res s)

end

/-- Settles O51: both machines are the one that has received nothing, with what each has received put before. -/
theorem historyIsNeverRead : Obligations.HistoryIsNeverRead := by
  unfold Obligations.HistoryIsNeverRead
  intro s recs res
  have hown : s = withEarlier s.sink s.results { s with sink := [], results := [] } := by simp [withEarlier]
  have hother : { s with sink := recs, results := res } =
      withEarlier recs res { s with sink := [], results := [] } := by simp [withEarlier]
  have hstep : step s = _ := (congrArg step hown).trans (step_withEarlier s.sink s.results _)
  rw [hstep, hother, step_withEarlier]
  cases step { s with sink := [], results := [] } with
  | next t =>
    refine ⟨fun t' h => ?_, fun f h => (by cases h), fun x h => (by cases h)⟩
    obtain rfl := Host.Outcome.next.inj h
    exact ⟨t.sink, t.results, rfl, rfl, rfl⟩
  | fault r => exact ⟨fun t' h => (by cases h), fun f h => h, fun x h => h⟩
  | refused r => exact ⟨fun t' h => (by cases h), fun f h => h, fun x h => h⟩

/-! Several instances. -/

/-- A step at one position is its member's own: wherever the same member stands there, it is set to the same state,
and the same events, of this position only, go to the end of the common sink (R21, R236). -/
theorem stepAt_local {k : Nat} {sys next : Instances} (h : Instances.stepAt k sys = .next next) :
    ∃ t es, (∀ e ∈ es, e.1 = k) ∧ ∀ other : Instances, other.members[k]? = sys.members[k]? →
      Instances.stepAt k other = .next ⟨other.members.set k t, other.events ++ es⟩ := by
  unfold Instances.stepAt at h ⊢
  cases hk : sys.members[k]? with
  | none =>
    refine ⟨State.reset, [], by simp, fun other hother => ?_⟩
    simp [hother, List.set_eq_of_length_le (List.getElem?_eq_none_iff.1 hother)]
  | some s =>
    simp only [hk] at h
    split at h
    next t hstep =>
      refine ⟨t, (t.sink.drop s.sink.length).map (fun e => (k, e)), fun e he => ?_, fun other hother => ?_⟩
      · obtain ⟨r, -, rfl⟩ := List.mem_map.1 he
        rfl
      · simp [hother, hstep]
    next => cases h
    next => cases h

theorem eventsOf_append (k : Nat) (members : List State) (es fs : List (Nat × EventRecord)) :
    Instances.eventsOf k ⟨members, es ++ fs⟩ =
      Instances.eventsOf k ⟨members, es⟩ ++ Instances.eventsOf k ⟨members, fs⟩ := by
  simp [Instances.eventsOf]

theorem eventsOf_of_other {i k : Nat} {es : List (Nat × EventRecord)} (hes : ∀ e ∈ es, e.1 = i) (hik : i ≠ k)
    (members : List State) : Instances.eventsOf k ⟨members, es⟩ = [] := by
  have hnone : es.filter (fun e => e.1 == k) = [] := List.filter_eq_nil_iff.2 fun e he => by simpa [hes e he] using hik
  simp [Instances.eventsOf, hnone]

/-- The events of two different instances, in either order, are the same events of each (R236). -/
theorem eventsOf_comm {i j : Nat} {es fs : List (Nat × EventRecord)} (hij : i ≠ j) (hes : ∀ e ∈ es, e.1 = i)
    (hfs : ∀ e ∈ fs, e.1 = j) (k : Nat) (members : List State) :
    Instances.eventsOf k ⟨members, es ++ fs⟩ = Instances.eventsOf k ⟨members, fs ++ es⟩ := by
  rw [eventsOf_append, eventsOf_append]
  by_cases hik : i = k
  · have hjk : j ≠ k := fun hjk => hij (hik.trans hjk.symm)
    simp [eventsOf_of_other hfs hjk]
  · simp [eventsOf_of_other hes hik]

/-- Settles O55: each step finds its own member as it was before the other step. -/
theorem instancesDoNotInterfere : Obligations.InstancesDoNotInterfere := by
  unfold Obligations.InstancesDoNotInterfere
  intro i j sys a b hij ha hb
  obtain ⟨t, es, hes, hi⟩ := stepAt_local ha
  obtain ⟨u, fs, hfs, hj⟩ := stepAt_local hb
  obtain rfl := Host.Outcome.next.inj ((hi sys rfl).symm.trans ha)
  obtain rfl := Host.Outcome.next.inj ((hj sys rfl).symm.trans hb)
  refine ⟨_, _, hj _ (List.getElem?_set_ne hij), hi _ (List.getElem?_set_ne hij.symm), List.set_comm t u hij,
    fun k => ?_⟩
  rw [List.append_assoc, List.append_assoc, eventsOf_append, eventsOf_append k _ sys.events, eventsOf_comm hij hes hfs]
  rfl

end Sys2Proof.Machine
end
